-- ==== Sys2Proof/Word.lean ====
section
/-! DEFINITION. The word types of the part: bytes, 16-bit fields and 32-bit registers and host addresses
(spec/00_scope.md, Conventions: little-endian, bit 0 the least significant). -/

namespace Sys2Proof

/-- One byte of a record, of a buffer or of a character. -/
abbrev Byte := BitVec 8

/-- A 16-bit field of a record (a tag, a length, a head). -/
abbrev Half := BitVec 16

/-- A 32-bit register, host address, counter or microsecond count. -/
abbrev Word := BitVec 32

/-- The number of a line, 0 to 7. -/
abbrev LineNo := Fin 8

/-- The number of a request queue: 0 is CTLQ, 1 to 8 are TXQ0 to TXQ7, 9 to 16 are RPQ0 to RPQ7 (section 9.2). -/
abbrev RqNo := Fin 17

/-- The number of a completion queue, CMQ0 to CMQ3. -/
abbrev CqNo := Fin 4

/-- The highest host byte address, 0xFFFFFFFF. -/
abbrev maxAddress : Nat := 4294967295

/-- The 16-bit field whose lower byte is `lo` and whose upper byte is `hi`. -/
def half (lo hi : Byte) : Half := hi ++ lo

/-- The 32-bit field whose bytes are `a` (lowest address) to `d`. -/
def word (a b c d : Byte) : Word := d ++ c ++ b ++ a

/-- The bytes of a 16-bit field, lowest address first. -/
def halfBytes (h : Half) : List Byte := [h.extractLsb' 0 8, h.extractLsb' 8 8]

/-- The bytes of a 32-bit field, lowest address first. -/
def wordBytes (w : Word) : List Byte :=
  [w.extractLsb' 0 8, w.extractLsb' 8 8, w.extractLsb' 16 8, w.extractLsb' 24 8]

end Sys2Proof
end

