-- ==== Sys2Proof/Config.lean ====
section
/-! DEFINITION. What the manual leaves open, as constants without a body (free values). -/

namespace Sys2Proof

/-- FREE VALUE (R173, R177; notes/assumptions/1.md). Whether one byte of a host write that failed or was abandoned
has reached host memory: "A failed write may have written any part of its bytes, in any part of its range, or none."
The argument is the running number of the byte in question (`State.freeNext`), so that every such byte is a fresh
choice. Nothing in Lean can evaluate it. -/
opaque Config.failedWriteLands : Nat → Bool

/-- FREE VALUE (R84, R92, R96; notes/assumptions/6.md). A data read of the current transmit record has failed while a data
character is on the output, so the record is to end with BUS_ERROR when that character has been sent (R84). Before it has,
a FLUSH_TX or an abort is taken, by which the record is to end ABORTED when the same character has been sent (R92, R96).
Which of the two statuses the TX_DONE carries the manual does not say: here, whether the later cause's. The arguments are
the line and the count of the Time Base at the later taking. Nothing in Lean can evaluate it. -/
opaque Config.laterCauseWins : LineNo → Word → Bool

/-- FREE VALUE (R29, R62, R75, R127; notes/assumptions/30.md). A FLUSH_RX finds the receive FIFO empty and no started buffer.
R127 says that it changes nothing; R75, with R29 and R62, has it clear loss_pending, gap armed and loss_carried: here,
whether it clears them. The arguments are the line and the count of the Time Base at the taking. Nothing in Lean can
evaluate it. -/
opaque Config.emptyFlushClears : LineNo → Word → Bool

end Sys2Proof
end

