-- ==== Sys2Proof/Syntax.lean ====
section
/-! DEFINITION. The commands of the part: one constructor per row of spec/opcode_table.json, with the operands each
happening carries. A control request carries no operand: its record is the one the control queue's ended fetch
delivers (R111, R192), and stands in the state. -/

namespace Sys2Proof

/-- The 25 producers of completion records (R138). -/
inductive Producer where
  /-- a line's receive pending slot -/
  | rxSlot (line : LineNo)
  /-- a line's transmit pending slot -/
  | txSlot (line : LineNo)
  /-- a line's event list -/
  | events (line : LineNo)
  /-- the Control Unit's control pending slot -/
  | control
  deriving DecidableEq, Repr

/-- What the host bus answers to an access (R173). -/
inductive BusReply where
  /-- a normal response for the whole transfer; for a read, with the bytes read in address order -/
  | normal (data : List Byte)
  /-- an error response -/
  | error
  /-- a response, of either kind, that belongs to an access which has already ended, by its timeout or abandoned;
  DESIGN CHOICE of the form (notes/assumptions/31.md) -/
  | late
  deriving DecidableEq, Repr

/-- The commands: registers written or read, control requests taken, happenings on a line, of the Memory Engine, of
the requesters of host accesses, of the receive writer, of the Completion Unit and of the Time Base. -/
inductive Instr where
  -- pins and the register window
  /-- PIN_RESET: RESET# is driven low (R190) -/
  | pinReset
  /-- PIN_RESET_RELEASE: RESET# returns high (R190) -/
  | pinResetRelease
  /-- RUN_WRITTEN_1: a CONTROL write with RUN 1 and SOFT_RESET 0 (R178) -/
  | runWritten1
  /-- RUN_WRITTEN_0: a CONTROL write with RUN 0 and SOFT_RESET 0 (R178) -/
  | runWritten0
  /-- SOFT_RESET: a CONTROL write with SOFT_RESET 1, whatever RUN bit it carries (R178, R191) -/
  | softReset (run : Bool)
  /-- SOFT_RESET_TAKES_EFFECT (R191) -/
  | softResetTakesEffect
  /-- STATUS_READ (R179) -/
  | statusRead
  /-- SETUP_ADDR_WRITE (R153) -/
  | setupAddrWrite (value : Word)
  /-- POST: bits 20 to 16 and 15 to 0 of the written word (R156, R194) -/
  | post (queue : BitVec 5) (tail : Half)
  /-- RETIRE: a RETIRE write with ARM clear, bits 19 to 16 and 15 to 0 of the written word (R145, R194) -/
  | retire (queue : BitVec 4) (head : Half)
  /-- RETIRE_ARM: a RETIRE write with ARM set (R144, R194) -/
  | retireArm (queue : BitVec 4) (head : Half)
  /-- REGISTER_WRITE_IGNORED: a write of `value` at `offset`, narrower than 32 bits when `narrow` (R152) -/
  | registerWriteIgnored (offset : Nat) (narrow : Bool) (value : Word)
  -- control requests, taken from the control queue's ended fetch
  /-- NOP (R119) -/
  | nop
  /-- UNASSIGNED_REQUEST_CODE (R112) -/
  | unassignedRequestCode
  /-- SET_RATE_TABLE (R36) -/
  | setRateTable
  /-- OPEN_LINE (R121) -/
  | openLine
  /-- MODIFY_LINE (R123) -/
  | modifyLine
  /-- SET_DELIMITERS (R66) -/
  | setDelimiters
  /-- REDISCOVER (R125) -/
  | rediscover
  /-- FLUSH_TX (R128) -/
  | flushTx
  /-- FLUSH_RX (R127) -/
  | flushRx
  /-- CLOSE_LINE (R129) -/
  | closeLine
  /-- QUERY_LINE (R131) -/
  | queryLine
  /-- RESTART_QUEUE (R165) -/
  | restartQueue
  -- happenings on a line
  /-- CHARACTER_COMPLETES: the bits of the frame as sampled, the start bit first, mark as `true` (R21, R24) -/
  | characterCompletes (line : LineNo) (bits : List Bool)
  /-- BREAK_BEGINS (R26) -/
  | breakBegins (line : LineNo)
  /-- BREAK_ENDS (R22) -/
  | breakEnds (line : LineNo)
  /-- LOW_INTERVAL: a rising edge in SEEK, `ticks` reference ticks after the falling edge (R41) -/
  | lowInterval (line : LineNo) (ticks : Nat)
  /-- GAP_TIMER_EXPIRY (R31) -/
  | gapTimerExpiry (line : LineNo)
  /-- DISCOVERY_TIMEOUT_EXPIRY (R50) -/
  | discoveryTimeoutExpiry (line : LineNo)
  /-- TRIAL_WINDOW_EXPIRY (R46) -/
  | trialWindowExpiry (line : LineNo)
  /-- DRAIN_LIMIT_EXPIRY (R7) -/
  | drainLimitExpiry (line : LineNo)
  /-- PAUSE_LIMIT_EXPIRY (R105) -/
  | pauseLimitExpiry (line : LineNo)
  /-- BREAK_TIMER_EXPIRY (R89) -/
  | breakTimerExpiry (line : LineNo)
  /-- DATA_CHARACTER_SENT (R86) -/
  | dataCharacterSent (line : LineNo)
  /-- FLOW_CHARACTER_ENDS (R88) -/
  | flowCharacterEnds (line : LineNo)
  -- the Memory Engine
  /-- ACCESS_GRANT (R171) -/
  | accessGrant
  /-- BUS_RESPONSE (R173) -/
  | busResponse (reply : BusReply)
  /-- ACCESS_TIMEOUT (R173) -/
  | accessTimeout
  -- results of accesses reaching their requesters
  /-- CHUNK_WRITE_ENDS (R63) -/
  | chunkWriteEnds (line : LineNo)
  /-- DATA_READ_ENDS (R83) -/
  | dataReadEnds (line : LineNo)
  /-- FETCH_ENDS (R159) -/
  | fetchEnds (queue : RqNo)
  /-- TABLE_READ_ENDS (R37) -/
  | tableReadEnds
  /-- REPORT_WRITE_ENDS (R132) -/
  | reportWriteEnds
  /-- BODY_ACCESS_ENDS (R135) -/
  | bodyAccessEnds (queue : CqNo)
  /-- HEAD_WORD_ENDS (R135) -/
  | headWordEnds (queue : CqNo)
  /-- PROGRESS_WRITE_ENDS (R162) -/
  | progressWriteEnds
  /-- SETUP_RECORD_READ_ENDS (R181) -/
  | setupRecordReadEnds
  /-- ZERO_PROGRESS_WRITE_ENDS (R183) -/
  | zeroProgressWriteEnds
  -- the receive writer, the Completion Unit and Part Control
  /-- TAKE_CHARACTER_ENTRY (R59) -/
  | takeCharacterEntry (line : LineNo)
  /-- TAKE_GAP_MARKER (R60) -/
  | takeGapMarker (line : LineNo)
  /-- TAKE_BREAK_MARKER (R61) -/
  | takeBreakMarker (line : LineNo)
  /-- ANSWER_INVALID_RECORD (R57) -/
  | answerInvalidRecord (line : LineNo)
  /-- OFFER (R139) -/
  | offer (producer : Producer)
  /-- WIND_UP_BUFFER_ANSWER (R9) -/
  | windUpBufferAnswer (line : LineNo)
  /-- WIND_UP_END (R9) -/
  | windUpEnd (line : LineNo)
  /-- MODERATION_TIMER_EXPIRY (R147) -/
  | moderationTimerExpiry (queue : CqNo)
  /-- STOP_LIMIT_EXPIRY (R187) -/
  | stopLimitExpiry
  /-- STOPPING_ENDS (R186) -/
  | stoppingEnds
  /-- FALLING_EDGE (R20) -/
  | fallingEdge (line : LineNo)
  /-- FALSE_START (R20) -/
  | falseStart (line : LineNo)
  /-- MICROSECOND_COUNT_RISES (R154) -/
  | microsecondCountRises
  deriving DecidableEq, Repr

end Sys2Proof
end

