-- ==== Sys2Proof/Decode.lean ====
section
/-! DEFINITION. The command that a word spells by the opcode table's bits. The table gives no row any bits: the part takes
its commands as register accesses, as happenings and as records of the control queue, and none of its rows has an
encoding of its own. So no word spells a command. -/

namespace Sys2Proof

/-- The command that `nbits` bits `w` spell: none, since no row of the table has bits. -/
def decodeTableWord (_nbits _w : Nat) : Option Instr := none

end Sys2Proof
end

