-- ==== Sys2Proof/Machine/State.lean ====
section
/-! DEFINITION. The state of the part as plain data, its values after reset, and the (empty) reasons a command could
stop with. Every field of the spec is here under the spec's own name where it has one; the few fields the model adds
say so in their docstrings. -/

namespace Sys2Proof.Machine

/-! ### Why a command could stop -/

/-- No command of the part faults: the part's own FAULTED state is a part state (R188), reached by a next state. -/
inductive Fault : Type
  deriving DecidableEq, Repr

/-- Why a command could be refused. -/
inductive Refusal where
  /-- Raised by an arm of exec whose command has no meaning yet; no arm raises it in this model. Safe: nothing is
  claimed of the command. -/
  | notModelled (mnemonic : String)
  deriving DecidableEq, Repr

/-! ### Enumerations -/

/-- The level of a serial pin: mark is idle (high), space is active (low). -/
inductive Level where | mark | space
  deriving DecidableEq, Repr

/-- The part states (chapter 11). -/
inductive PartState where | stopped | loading | running | stopping | faulted
  deriving DecidableEq, Repr

/-- The cause shown in STATUS (R179). -/
inductive Cause where | noCause | setupBusError | setupInvalid | completionWrite | progressWrite | controlFetch
  deriving DecidableEq, Repr

/-- The sixteen statuses (section 12.7). -/
inductive Status where
  | ok | aborted | flushed | busError | addressFault | badRecord | badRequest | badParam
  | lineState | lineBusy | trialAmbiguous | tableOverlap | tableInUse | noRateTable | delimiterConflict | queueState
  deriving DecidableEq, Repr

/-- The reasons of an RX_DONE (R74, section 12.7). -/
inductive RxReason where
  | full | delimiter | gap | brk | error | flushed | closed | rateChange | badRecord | addressFault | busError
  deriving DecidableEq, Repr

/-- The parity kinds (R18). -/
inductive Parity where | noParity | even | odd | mark | space
  deriving DecidableEq, Repr

/-- The line states (R2). -/
inductive LineState where | closed | seek | trial | opened | closing
  deriving DecidableEq, Repr

/-- The close modes (R5). -/
inductive CloseMode where | graceful | immediate
  deriving DecidableEq, Repr

/-- The model's own name for how far a close has come: in the graceful drain of R6, waiting for the character on the
output to end before the transmit aborts are carried out (R96), or in the wind-up of R9. -/
inductive ClosePhase where | drain | aborting | windUp
  deriving DecidableEq, Repr

/-- The reasons of a RATE_NOT_FOUND (R51). -/
inductive FailReason where | attempts | timeout
  deriving DecidableEq, Repr

/-- The flow modes (R98). -/
inductive FlowMode where | noFlow | inband
  deriving DecidableEq, Repr

/-- The two flow characters. -/
inductive FlowChar where | pause | resume
  deriving DecidableEq, Repr

/-- The assembler's states (section 2.2). -/
inductive AsmState where | idle | hunt | frame | brk
  deriving DecidableEq, Repr

/-- The transmitter's states (section 5.2). -/
inductive TxState where | idle | sending | brk
  deriving DecidableEq, Repr

/-- The flush phases (R81). -/
inductive FlushPhase where | ending | fetching
  deriving DecidableEq, Repr

/-- The Control Unit's states (R110). -/
inductive CuState where | idle | fetching | holding
  deriving DecidableEq, Repr

/-- A completion queue's notification states (section 8.6). -/
inductive Notification where | disarmed | armed | asserted
  deriving DecidableEq, Repr

/-- A completion queue's entry write in progress (R134). -/
inductive EntryWrite where | noWrite | body | headWord
  deriving DecidableEq, Repr

/-- The actions of a delimiter (R65). -/
inductive DelimAction where | keepAndClose | dropAndClose | drop
  deriving DecidableEq, Repr

/-- The faults of an invalid receive post record (R54). -/
inductive RecordFault where | badRecord | addressFault
  deriving DecidableEq, Repr

/-! ### Settings and collections of a line -/

/-- A line's frame: its character format. -/
structure Frame where
  dataBits : Nat
  parity   : Parity
  stopBits : Nat
  deriving DecidableEq, Repr

/-- The settings an OPEN_LINE stores (R4, R120), some of which MODIFY_LINE replaces (R123). -/
structure Settings where
  boundCq      : CqNo
  trial1       : Byte
  trial2       : Byte
  seekWindow   : Nat
  attemptLimit : Nat
  /-- the discovery timeout, in ms -/
  discTimeout  : Nat
  keepTrial    : Bool
  /-- the stop bits after discovery -/
  stopAfter    : Nat
  flowMode     : FlowMode
  pauseValue   : Byte
  resumeValue  : Byte
  highMark     : Nat
  lowMark      : Nat
  /-- the pause limit, in ms -/
  pauseLimit   : Nat
  /-- the gap, in character times -/
  gap          : Nat
  closeOnError : Bool
  /-- the break length, in character times -/
  breakLength  : Nat
  deriving DecidableEq, Repr

/-- The discovery progress and the two discovery timers (R1, R39, R44, R45, R50). How a timer is held is a
DESIGN CHOICE (notes/assumptions/8.md). -/
structure Discovery where
  intervals : Nat
  shortest  : Option Nat
  attempts  : Nat
  /-- the candidate's index in the Rate Candidate Table -/
  candidate : Option Nat
  /-- the trial values held, in the order received; their number is "trial characters received" -/
  held      : List Byte
  /-- a low interval whose falling edge was seen in SEEK is being measured (R41) -/
  measuring : Bool
  /-- the discovery-timeout timer: µs left, absent when stopped -/
  timer     : Option Nat
  /-- the trial window: the reference ticks it was set to, absent when stopped -/
  window    : Option Nat
  deriving DecidableEq, Repr

/-- The flow state (R98). -/
structure Flow where
  ownPaused  : Bool
  peerPaused : Bool
  /-- the flow pending slot -/
  slot       : Option FlowChar
  /-- the pause-limit timer: µs left, absent when stopped -/
  timer      : Option Nat
  deriving DecidableEq, Repr

/-- The ten counters of a line (R15). -/
structure Counters where
  rxChars        : Word
  txChars        : Word
  parityErrors   : Word
  framingErrors  : Word
  overruns       : Word
  breaks         : Word
  gapCloses      : Word
  trialsFailed   : Word
  eventsLost     : Word
  flushedEntries : Word
  deriving DecidableEq, Repr

/-- An entry of the receive FIFO (R27); `loss` is its loss_before. -/
inductive FifoEntry where
  | char (value : Byte) (parityError framingError loss : Bool)
  | brk (loss : Bool)
  | gap (loss : Bool)
  deriving DecidableEq, Repr

/-- A delimiter (R65). -/
structure Delim where
  bytes  : List Byte
  action : DelimAction
  deriving DecidableEq, Repr

/-- An error summary: a set drawn from PARITY, FRAMING and OVERRUN (R56). -/
structure ErrorSet where
  parity  : Bool
  framing : Bool
  overrun : Bool
  deriving DecidableEq, Repr

/-- The condition of a receive post record in the buffer list (R56). -/
inductive BufCond where
  | waiting
  /-- started: the stored count, the error summary and the first-error offset -/
  | started (stored : Nat) (summary : ErrorSet) (firstError : Option Nat)
  | invalid (fault : RecordFault)
  deriving DecidableEq, Repr

/-- A receive post record in the buffer list (R54, R56). -/
structure RxBuf where
  addr : Word
  len  : Nat
  tag  : Half
  cond : BufCond
  deriving DecidableEq, Repr

/-- A transmit record (R79). -/
structure TxRecord where
  addr       : Word
  len        : Nat
  tag        : Half
  quiet      : Bool
  breakAfter : Bool
  deriving DecidableEq, Repr

/-- The current transmit record (R81). -/
structure TxCurrent where
  record    : TxRecord
  bytesRead : Nat
  bytesSent : Nat
  deriving DecidableEq, Repr

/-- The condition of a line's transmit output (R81). A character on the output carries its bits on the wire, start
bit first, mark as `true` (R18, R85, R88). -/
inductive Output where
  | mark
  | data (bits : List Bool)
  | flow (char : FlowChar) (bits : List Bool)
  | brk
  deriving DecidableEq, Repr

/-! ### Completion records -/

/-- What a completion record says (R138, section 12.5). -/
inductive CplBody where
  | controlDone (code : Byte) (line : Option LineNo) (tag : Half) (status : Status)
  | txDone (line : LineNo) (tag : Half) (sent : Nat) (status : Status)
  | rxDone (line : LineNo) (tag : Half) (count : Nat) (reason : RxReason) (summary : ErrorSet)
      (firstError : Option Nat) (delimiter : Option Nat)
  | rateFound (line : LineNo) (rateIndex : Nat) (frame : Frame) (divisor : Nat)
  | rateNotFound (line : LineNo) (reason : FailReason) (attempts : Nat)
  | breakIdle (line : LineNo)
  | pauseExpired (line : LineNo)
  | queueHalted (line : LineNo) (queue : RqNo) (slot : Nat)
  deriving DecidableEq, Repr

/-- A completion record with its destination queue, fixed when it enters its producer place (R138), and its
timestamp. -/
structure Completion where
  dest : CqNo
  time : Word
  body : CplBody
  deriving DecidableEq, Repr

/-- A record in a staging list, with the producer it was admitted from (R135, R139). -/
structure Staged where
  producer : Producer
  record   : Completion
  deriving DecidableEq, Repr

/-! ### A line context -/

/-- The receive side of a line context (R1, R19, R27, R28, R30, R56, R62, R63). -/
structure RxSide where
  asm         : AsmState
  fifo        : List FifoEntry
  lossPending : Bool
  lossCarried : Bool
  gapArmed    : Bool
  /-- the gap timer: the reference ticks it was last set to, absent when stopped -/
  gapTimer    : Option Nat
  /-- the delimiter table -/
  delims      : List Delim
  /-- the match hold, oldest first -/
  hold        : List Byte
  /-- the buffer list, oldest first -/
  bufs        : List RxBuf
  /-- the write chunk, and the host address of its first byte -/
  chunk       : List Byte
  chunkAddr   : Word
  /-- the bytes of the chunk write in flight, absent when none is -/
  inFlight    : Option Nat
  /-- the number of bytes in the buffer's chunk writes that ended OK (R77) -/
  written     : Nat
  /-- the receive pending slot -/
  slot        : Option Completion
  deriving DecidableEq, Repr

/-- The transmit side of a line context (R81). The TXQ fetch in flight stands with its queue (R155). -/
structure TxSide where
  st            : TxState
  output        : Output
  cur           : Option TxCurrent
  /-- the model's own: the current record has been ended with this status by FLUSH_TX, by an abort or by a failed data
  read, and ends when the character on the output has been sent (R84, R92, R96) -/
  ending        : Option Status
  fifo          : List Byte
  /-- the bytes of the data read in flight, absent when none is -/
  readInFlight  : Option Nat
  /-- the break timer: the reference ticks it was set to, absent when stopped -/
  breakTimer    : Option Nat
  flushBoundary : Option Nat
  flushPhase    : Option FlushPhase
  /-- the model's own: the flush has ended with this status, and its CONTROL_DONE waits for room in the event list (R13,
  R94); DESIGN CHOICE (notes/assumptions/21.md). -/
  flushDue      : Option Status
  /-- the transmit pending slot -/
  slot          : Option Completion
  deriving DecidableEq, Repr

/-- The pending long request (R14). -/
inductive PendingLong where
  | noRequest
  | flushTx (tag : Half)
  | closeLine (mode : CloseMode) (tag : Half)
  /-- a GRACEFUL tag and the IMMEDIATE tag that overtook it (R10) -/
  | twoCloses (graceful immediate : Half)
  deriving DecidableEq, Repr

/-- The close fields of a line context. -/
structure CloseSide where
  mode       : Option CloseMode
  /-- the model's own, see `ClosePhase` -/
  phase      : Option ClosePhase
  /-- the model's own: a discovery-failure close's reason and attempts failed (R11, R51) -/
  failure    : Option (FailReason × Nat)
  /-- the drain-limit timer: µs left, absent when stopped -/
  drainTimer : Option Nat
  /-- the transmit drain boundary -/
  boundary   : Option Nat
  /-- the model's own: the transmit side of the drain is done (R6, R165); DEDUCED (notes/assumptions/20.md). -/
  txDone     : Bool
  deriving DecidableEq, Repr

/-- A line context: the whole state of one line (R1). -/
structure Line where
  state     : LineState
  frame     : Frame
  divisor   : Nat
  rateIndex : Option Nat
  set       : Settings
  disc      : Discovery
  flow      : Flow
  rx        : RxSide
  tx        : TxSide
  close     : CloseSide
  /-- the event list -/
  events    : List Completion
  long      : PendingLong
  counters  : Counters
  deriving DecidableEq, Repr

/-! ### Rings, windows, the Memory Engine -/

/-- An entry of the window table (R167). -/
structure Window where
  base  : Word
  len   : Word
  read  : Bool
  write : Bool
  deriving DecidableEq, Repr

/-- An entry of the Rate Candidate Table (R35); its index is its place in the table. -/
structure RateEntry where
  divisor : Nat
  min     : Nat
  max     : Nat
  deriving DecidableEq, Repr

/-- A request queue (R155). -/
structure ReqQueue where
  base   : Word
  size   : Option Nat
  head   : Nat
  tail   : Nat
  halted : Bool
  fetch  : Bool
  deriving DecidableEq, Repr

/-- A completion queue (R134). -/
structure CplQueue where
  base      : Word
  size      : Option Nat
  tail      : Nat
  phase     : Bool
  head      : Nat
  staging   : List Staged
  waiting   : List Producer
  write     : EntryWrite
  notif     : Notification
  threshold : Nat
  /-- the moderation delay, in µs -/
  delay     : Nat
  /-- the moderation timer: µs left, absent when stopped -/
  timer     : Option Nat
  deriving DecidableEq, Repr

/-- Who asked for a host access (R170, R171). -/
inductive Requester where
  | setupRead | zeroProgress | progress
  | body (queue : CqNo) | headWord (queue : CqNo)
  | chunk (line : LineNo) | dataRead (line : LineNo)
  | fetch (queue : RqNo) | tableRead | reportWrite
  deriving DecidableEq, Repr

/-- What an access does: reads a number of bytes, or writes bytes (R170). -/
inductive Transfer where
  | read (count : Nat)
  | write (bytes : List Byte)
  deriving DecidableEq, Repr

/-- A request of the Memory Engine (R170). -/
structure Request where
  requester : Requester
  addr      : Word
  transfer  : Transfer
  deriving DecidableEq, Repr

/-- The access in progress (R170). -/
structure Access where
  request : Request
  /-- the Time Base count at which it began -/
  began   : Word
  /-- its result is delivered to its requester (R177: an access let end is not) -/
  deliver : Bool
  deriving DecidableEq, Repr

/-- The result of an access that has ended and that its requester has not taken yet (R173). -/
structure Result where
  requester : Requester
  addr      : Word
  /-- the bytes read (none for a write) when it ended OK; absent for BUS_ERROR -/
  data      : Option (List Byte)
  deriving DecidableEq, Repr

/-- The members of classes B, C and D in cyclic order: 0 to 7 the lines, 8 the Control Unit (R172). -/
abbrev Member := Fin 9

/-- The Memory Engine (R170). -/
structure Engine where
  access  : Option Access
  listA   : List Request
  listB   : List Request
  listC   : List Request
  listD   : List Request
  lastB   : Member
  lastC   : Member
  lastD   : Member
  /-- results reported and not yet taken by their requesters, oldest first; DESIGN CHOICE (notes/assumptions/9.md). -/
  results : List Result
  deriving DecidableEq, Repr

/-- The Control Unit (R110). -/
structure ControlUnit where
  st   : CuState
  /-- the current control request: the bytes of its record -/
  req  : Option (List Byte)
  /-- the control pending slot -/
  slot : Option Completion
  deriving DecidableEq, Repr

/-! ### The state of the part -/

/-- The state of the part and of what stands around it. -/
structure State where
  /-- the part state -/
  part           : PartState
  /-- RESET# is held low (R190) -/
  resetHeld      : Bool
  /-- a soft reset has been written and has not taken effect (R191) -/
  softPending    : Bool
  /-- CONTROL.RUN as stored -/
  run            : Bool
  /-- STATUS.cause, STATUS.DISCARDED, STATUS.POST_REJECTED, STATUS.RETIRE_REJECTED -/
  cause          : Cause
  discarded      : Bool
  postRejected   : Bool
  retireRejected : Bool
  setupAddr      : Word
  faultAddr      : Word
  /-- NOTIFY.FAULT -/
  notifyFault    : Bool
  /-- the Time Base's count (TIMESTAMP) -/
  time           : Word
  /-- the stop limit: µs left, absent when stopped -/
  stopLimit      : Option Nat
  /-- the model's own: the stop limit has expired and the access in progress is let end (R187) -/
  stopExpired    : Bool
  /-- the model's own: LOADING has been abandoned and its access is let end (R184) -/
  loadAbandoned  : Bool
  /-- the window table -/
  windows        : List Window
  /-- the Rate Candidate Table -/
  rateTable      : List RateEntry
  lines          : Vector Line 8
  reqQueues      : Vector ReqQueue 17
  cplQueues      : Vector CplQueue 4
  /-- the progress block's address, and whether a progress write waits to begin or is in progress (R155, R161) -/
  progressAddr   : Word
  progressWaits  : Bool
  progressActive : Bool
  engine         : Engine
  control        : ControlUnit
  /-- the pins RXD0 to RXD7, as the happenings taken last left them; DESIGN CHOICE (notes/assumptions/11.md). -/
  rxd            : Vector Level 8
  /-- the model's own: host memory as the part's own accesses have written it, see Machine/Memory.lean -/
  mem            : List Host.Cell
  /-- the model's own: how many free values of `Config.failedWriteLands` have been used -/
  freeNext       : Nat
  /-- the model's own: the word the latest STATUS read drove onto the host bus; DESIGN CHOICE
  (notes/assumptions/27.md). -/
  readData       : Word
  /-- the model's own: the commands that wait, first in, first out; DESIGN CHOICE (notes/assumptions/28.md;
  notes/assumptions/29.md). -/
  pending        : List Instr
  deriving DecidableEq, Repr

/-! ### Values after reset -/

/-- The settings of a line after reset (R1). -/
def Settings.reset : Settings :=
  { boundCq := 0, trial1 := 0x00#8, trial2 := 0x00#8, seekWindow := 4, attemptLimit := 0, discTimeout := 0,
    keepTrial := false, stopAfter := 1, flowMode := .noFlow, pauseValue := 0x13#8, resumeValue := 0x11#8,
    highMark := 31, lowMark := 0, pauseLimit := 0, gap := 0, closeOnError := false, breakLength := 2 }

/-- The discovery progress after reset (R1), which is also the fresh progress of R39 with its timers stopped. That no low
interval is in progress is a DESIGN CHOICE (notes/assumptions/12.md). -/
def Discovery.reset : Discovery :=
  { intervals := 0, shortest := none, attempts := 0, candidate := none, held := [], measuring := false,
    timer := none, window := none }

/-- The flow state after reset (R98). -/
def Flow.reset : Flow := { ownPaused := false, peerPaused := false, slot := none, timer := none }

/-- The counters after reset (R1). -/
def Counters.reset : Counters :=
  { rxChars := 0, txChars := 0, parityErrors := 0, framingErrors := 0, overruns := 0, breaks := 0, gapCloses := 0,
    trialsFailed := 0, eventsLost := 0, flushedEntries := 0 }

/-- The receive side after reset (R1, R19, R28, R62). That the empty chunk's address and the count of bytes written are 0
is a DESIGN CHOICE (notes/assumptions/12.md). -/
def RxSide.reset : RxSide :=
  { asm := .idle, fifo := [], lossPending := false, lossCarried := false, gapArmed := false, gapTimer := none,
    delims := [], hold := [], bufs := [], chunk := [], chunkAddr := 0, inFlight := none, written := 0, slot := none }

/-- The transmit side after reset (R81). -/
def TxSide.reset : TxSide :=
  { st := .idle, output := .mark, cur := none, ending := none, fifo := [], readInFlight := none, breakTimer := none,
    flushBoundary := none, flushPhase := none, flushDue := none, slot := none }

/-- The close fields after reset (R1). -/
def CloseSide.reset : CloseSide :=
  { mode := none, phase := none, failure := none, drainTimer := none, boundary := none, txDone := false }

/-- The frame after reset: 8 data bits, NONE, 1 stop bit (R1). -/
def Frame.reset : Frame := { dataBits := 8, parity := .noParity, stopBits := 1 }

/-- A line context after pin reset, soft reset, LOADING or fault entry (R1). -/
def Line.reset : Line :=
  { state := .closed, frame := Frame.reset, divisor := 32, rateIndex := none, set := Settings.reset,
    disc := Discovery.reset, flow := Flow.reset, rx := RxSide.reset, tx := TxSide.reset, close := CloseSide.reset,
    events := [], long := .noRequest, counters := Counters.reset }

/-- An unused window (R167): its length is 0. That its base is 0 and its permissions are empty is a DESIGN CHOICE: the manual
gives an unused entry no other value (notes/assumptions/12.md). -/
def Window.unused : Window := { base := 0, len := 0, read := false, write := false }

/-- The window table with every entry unused (R167). -/
def unusedWindows : List Window := List.replicate 8 Window.unused

/-- A request queue after pin reset or soft reset, and at LOADING before the Setup Record installs it (R155, R180). -/
def ReqQueue.reset : ReqQueue :=
  { base := 0, size := none, head := 0, tail := 0, halted := false, fetch := false }

/-- A completion queue after pin reset or soft reset, and at LOADING before the Setup Record installs it (R134,
R180). -/
def CplQueue.reset : CplQueue :=
  { base := 0, size := none, tail := 0, phase := true, head := 0, staging := [], waiting := [], write := .noWrite,
    notif := .disarmed, threshold := 0, delay := 0, timer := none }

/-- The Memory Engine after pin reset, soft reset or LOADING (R170). -/
def Engine.reset : Engine :=
  { access := none, listA := [], listB := [], listC := [], listD := [], lastB := 8, lastC := 8, lastD := 8,
    results := [] }

/-- The Control Unit after reset, LOADING or fault entry (R110). -/
def ControlUnit.reset : ControlUnit := { st := .idle, req := none, slot := none }

/-- The machine right after pin reset, with RESET# high again (R190). Nothing is pending and the part has written
nothing to host memory. The reset values of the model's own fields, of the progress block's address and of the pins are
DESIGN CHOICES (notes/assumptions/12.md; notes/assumptions/11.md). -/
def State.reset : State :=
  { part := .stopped, resetHeld := false, softPending := false, run := false, cause := .noCause, discarded := false,
    postRejected := false, retireRejected := false, setupAddr := 0, faultAddr := 0, notifyFault := false, time := 0,
    stopLimit := none, stopExpired := false, loadAbandoned := false, windows := unusedWindows, rateTable := [],
    lines := Vector.replicate 8 Line.reset, reqQueues := Vector.replicate 17 ReqQueue.reset,
    cplQueues := Vector.replicate 4 CplQueue.reset, progressAddr := 0, progressWaits := false, progressActive := false,
    engine := Engine.reset, control := ControlUnit.reset, rxd := Vector.replicate 8 Level.mark, mem := [],
    freeNext := 0, readData := 0, pending := [] }

end Sys2Proof.Machine
end

