-- ==== Sys2Proof/Machine/Operands.lean ====
section
/-! DEFINITION. The operand forms of the part: the byte layouts of the records it reads and of the records it writes,
and the codes of its enumerations (chapter 12, R192, R193). Reserved bytes of a record read are not examined; reserved
bytes of a record written are 0, and absent fields are all ones. -/

namespace Sys2Proof.Machine

/-! ### Fields of a record -/

/-- Byte `n` of a record. -/
def recByte (r : List Byte) (n : Nat) : Byte := r.getD n 0

/-- The 16-bit field at bytes `n`, `n + 1`. -/
def recHalf (r : List Byte) (n : Nat) : Half := half (recByte r n) (recByte r (n + 1))

/-- The 32-bit field at bytes `n` to `n + 3`. -/
def recWord (r : List Byte) (n : Nat) : Word :=
  word (recByte r n) (recByte r (n + 1)) (recByte r (n + 2)) (recByte r (n + 3))

/-- Bit `k` of byte `n` of a record. -/
def recBit (r : List Byte) (n k : Nat) : Bool := (recByte r n).getLsbD k

/-! ### Codes (section 12.7, 12.8, 12.5, 12.6) -/

def Status.code : Status → Byte
  | .ok => 0 | .aborted => 1 | .flushed => 2 | .busError => 3 | .addressFault => 4 | .badRecord => 5
  | .badRequest => 6 | .badParam => 7 | .lineState => 8 | .lineBusy => 9 | .trialAmbiguous => 10
  | .tableOverlap => 11 | .tableInUse => 12 | .noRateTable => 13 | .delimiterConflict => 14 | .queueState => 15

def RxReason.code : RxReason → BitVec 4
  | .full => 0 | .delimiter => 1 | .gap => 2 | .brk => 3 | .error => 4 | .flushed => 5 | .closed => 6
  | .rateChange => 7 | .badRecord => 8 | .addressFault => 9 | .busError => 10

def Parity.code : Parity → Byte
  | .noParity => 0 | .even => 1 | .odd => 2 | .mark => 3 | .space => 4

def LineState.code : LineState → Byte
  | .closed => 0 | .seek => 1 | .trial => 2 | .opened => 3 | .closing => 4

def CloseMode.code : CloseMode → Byte
  | .graceful => 0 | .immediate => 1

def PendingLong.code : PendingLong → Byte
  | .noRequest => 0 | .flushTx _ => 1 | .closeLine _ _ => 2 | .twoCloses _ _ => 3

def TxState.code : TxState → Byte
  | .idle => 0 | .sending => 1 | .brk => 2

def FailReason.code : FailReason → Byte
  | .attempts => 0 | .timeout => 1

def PartState.code : PartState → BitVec 3
  | .stopped => 0 | .loading => 1 | .running => 2 | .stopping => 3 | .faulted => 4

def Cause.code : Cause → BitVec 3
  | .noCause => 0 | .setupBusError => 1 | .setupInvalid => 2 | .completionWrite => 3 | .progressWrite => 4
  | .controlFetch => 5

/-- The parity kind a code names, if any (section 12.7). -/
def parityOfCode (b : Byte) : Option Parity :=
  match b.toNat with
  | 0 => some .noParity | 1 => some .even | 2 => some .odd | 3 => some .mark | 4 => some .space | _ => none

/-- The delimiter action a code names, if any (section 12.4). -/
def actionOfCode (b : Byte) : Option DelimAction :=
  match b.toNat with
  | 0 => some .keepAndClose | 1 => some .dropAndClose | 2 => some .drop | _ => none

/-! ### Control requests (section 12.3) -/

/-- The request code. -/
def reqCode (r : List Byte) : Byte := recByte r 0

/-- The line number as written. -/
def reqLine (r : List Byte) : Byte := recByte r 1

/-- The tag. -/
def reqTag (r : List Byte) : Half := recHalf r 2

/-- A code that names a line: OPEN_LINE (2) to QUERY_LINE (9) (R14, section 12.3). -/
def namesLine (code : Byte) : Bool := decide (2 ≤ code.toNat ∧ code.toNat ≤ 9)

/-- The line a request names, when its code names a line and its line number is 0 to 7 (R115). -/
def reqLineNo (r : List Byte) : Option LineNo :=
  if h : (reqLine r).toNat < 8 then (if namesLine (reqCode r) then some ⟨(reqLine r).toNat, h⟩ else none) else none

/-- The settings an OPEN_LINE carries (R120). -/
def openSettings (r : List Byte) : Settings :=
  { boundCq := Fin.ofNat 4 (recByte r 10).toNat, trial1 := recByte r 22, trial2 := recByte r 23,
    seekWindow := (recByte r 24).toNat, attemptLimit := (recByte r 25).toNat, discTimeout := (recHalf r 26).toNat,
    keepTrial := recBit r 20 1, stopAfter := (recByte r 21).toNat,
    flowMode := if (recByte r 11).toNat = 1 then .inband else .noFlow,
    pauseValue := recByte r 12, resumeValue := recByte r 13, highMark := (recByte r 15).toNat,
    lowMark := (recByte r 14).toNat, pauseLimit := (recHalf r 16).toNat, gap := (recByte r 18).toNat,
    closeOnError := recBit r 20 0, breakLength := (recByte r 19).toNat }

/-- The frame an OPEN_LINE with rate mode FIXED carries (R120). -/
def openFrame (r : List Byte) : Frame :=
  { dataBits := (recByte r 5).toNat, parity := (parityOfCode (recByte r 6)).getD .noParity,
    stopBits := (recByte r 7).toNat }

/-- The settings a MODIFY_LINE leaves: each selected setting replaced, the others kept (R123, R124). -/
def modifySettings (r : List Byte) (t : Settings) : Settings :=
  { t with
    gap := if recBit r 4 0 then (recByte r 5).toNat else t.gap,
    highMark := if recBit r 4 1 then (recByte r 6).toNat else t.highMark,
    lowMark := if recBit r 4 2 then (recByte r 7).toNat else t.lowMark,
    closeOnError := if recBit r 4 3 then recBit r 8 0 else t.closeOnError,
    pauseLimit := if recBit r 4 4 then (recHalf r 10).toNat else t.pauseLimit,
    breakLength := if recBit r 4 5 then (recByte r 9).toNat else t.breakLength }

/-- The length byte of slot `k` of a delimiter block (section 12.4). -/
def slotLength (r : List Byte) (k : Nat) : Nat := (recByte r (8 + 6 * k)).toNat

/-- The bytes of slot `k` of a delimiter block: its byte places 0 to its length − 1. -/
def slotBytes (r : List Byte) (k : Nat) : List Byte :=
  (List.range (slotLength r k)).map fun j => recByte r (8 + 6 * k + 2 + j)

/-- The action code of slot `k`. -/
def slotAction (r : List Byte) (k : Nat) : Option DelimAction := actionOfCode (recByte r (8 + 6 * k + 1))

/-- The delimiters of the slots below `n` (R66, R67). -/
def blockDelims (r : List Byte) (n : Nat) : List Delim :=
  (List.range n).map fun k => { bytes := slotBytes r k, action := (slotAction r k).getD .drop }

/-! ### Transmit and receive post records, rate table entries (section 12.3) -/

/-- A transmit record as fetched (R79). -/
def txRecordOf (r : List Byte) : TxRecord :=
  { addr := recWord r 0, len := (recHalf r 4).toNat, tag := recHalf r 6, quiet := recBit r 8 0,
    breakAfter := recBit r 8 1 }

/-- A receive post record as fetched, before its check (R54). -/
def rxBufOf (r : List Byte) : RxBuf :=
  { addr := recWord r 0, len := (recHalf r 4).toNat, tag := recHalf r 6, cond := .waiting }

/-- Entry `k` of a rate table read (section 12.3). -/
def rateEntryOf (r : List Byte) (k : Nat) : RateEntry :=
  { divisor := (recHalf r (8 * k)).toNat, min := (recHalf r (8 * k + 4)).toNat, max := (recHalf r (8 * k + 6)).toNat }

/-- The entries of a rate table read. -/
def rateEntriesOf (r : List Byte) (n : Nat) : List RateEntry := (List.range n).map (rateEntryOf r)

/-! ### The Setup Record (section 12.2) -/

/-- Window `n` of a Setup Record. -/
def setupWindow (r : List Byte) (n : Nat) : Window :=
  { base := recWord r (12 * n), len := recWord r (12 * n + 4), read := recBit r (12 * n + 8) 0,
    write := recBit r (12 * n + 8) 1 }

/-- The eight windows of a Setup Record. -/
def setupWindows (r : List Byte) : List Window := (List.range 8).map (setupWindow r)

/-- The base of request ring `q`, and its size. -/
def setupRqBase (r : List Byte) (q : Nat) : Word := recWord r (0x60 + 8 * q)
def setupRqSize (r : List Byte) (q : Nat) : Nat := (recHalf r (0x60 + 8 * q + 4)).toNat

/-- The base of completion ring `c`, its size, its moderation delay and its threshold. -/
def setupCqBase (r : List Byte) (c : Nat) : Word := recWord r (0xE8 + 8 * c)
def setupCqSize (r : List Byte) (c : Nat) : Nat := (recHalf r (0xE8 + 8 * c + 4)).toNat
def setupCqDelay (r : List Byte) (c : Nat) : Nat := (recHalf r (0xE8 + 8 * c + 6)).toNat
def setupCqThreshold (r : List Byte) (c : Nat) : Nat := (recByte r (0x108 + c)).toNat

/-- The progress block's address. -/
def setupProgress (r : List Byte) : Word := recWord r 0x10C

/-- The entry size of a request queue in bytes: 32 for CTLQ, 16 for the others (section 9.2). -/
def entrySize (q : RqNo) : Nat := if q = 0 then 32 else 16

/-! ### Completion entries (section 12.5) -/

/-- Two four-bit fields in one byte, the second in bits 3 to 0. -/
def nibbles (hi lo : BitVec 4) : Byte := hi ++ lo

/-- A 16-bit field from a count. -/
def count16 (n : Nat) : List Byte := halfBytes (BitVec.ofNat 16 n)

/-- An optional 16-bit field: all ones when absent (R193). -/
def optional16 : Option Nat → List Byte
  | some n => count16 n
  | none => [0xFF, 0xFF]

/-- The line number as a byte. -/
def lineByte (i : LineNo) : Byte := BitVec.ofNat 8 i.val

/-- Byte 4 of an RX_DONE: bits 2–0 line, bit 4 PARITY, bit 5 FRAMING, bit 6 OVERRUN. -/
def rxDoneByte4 (i : LineNo) (e : ErrorSet) : Byte :=
  lineByte i ||| (if e.parity then 0x10 else 0) ||| (if e.framing then 0x20 else 0) ||| (if e.overrun then 0x40 else 0)

/-- The kind code of a completion record. -/
def CplBody.kind : CplBody → BitVec 4
  | .controlDone .. => 1
  | .txDone .. => 2
  | .rxDone .. => 3
  | .rateFound .. => 4
  | .rateNotFound .. => 4
  | .breakIdle .. => 4
  | .pauseExpired .. => 4
  | .queueHalted .. => 4

/-- Bytes 4 to 11 of a completion entry. -/
def CplBody.bytes : CplBody → List Byte
  | .controlDone code line tag st =>
    [code, (line.map lineByte).getD 0xFF] ++ halfBytes tag ++ [st.code, 0, 0, 0]
  | .txDone line tag sent st => [lineByte line, st.code] ++ halfBytes tag ++ count16 sent ++ [0, 0]
  | .rxDone line tag count reason summary firstError delim =>
    [rxDoneByte4 line summary, nibbles ((delim.map (BitVec.ofNat 4)).getD 0xF) reason.code] ++ halfBytes tag ++
      count16 count ++ optional16 firstError
  | .rateFound line idx f d =>
    [lineByte line, 0, BitVec.ofNat 8 idx, BitVec.ofNat 8 f.dataBits, f.parity.code, BitVec.ofNat 8 f.stopBits] ++
      count16 d
  | .rateNotFound line reason n => [lineByte line, 1, reason.code, BitVec.ofNat 8 n, 0, 0, 0, 0]
  | .breakIdle line => [lineByte line, 2, 0, 0, 0, 0, 0, 0]
  | .pauseExpired line => [lineByte line, 3, 0, 0, 0, 0, 0, 0]
  | .queueHalted line q slot => [lineByte line, 4, BitVec.ofNat 8 q.val, 0] ++ count16 slot ++ [0, 0]

/-- The body of a completion entry, bytes 4 to 15 of its slot (R135, R193). -/
def Completion.bodyBytes (c : Completion) : List Byte := c.body.bytes ++ wordBytes c.time

/-- The head word of a completion entry, bytes 0 to 3 of its slot: the kind in bits 3–0 and the phase in bit 7 of byte
0, everything else 0 (R193). -/
def Completion.headBytes (c : Completion) (phase : Bool) : List Byte :=
  [nibbles (if phase then 8 else 0) c.body.kind, 0, 0, 0]

/-! ### The Line Report and the progress block (section 12.6) -/

/-- One bit of a byte. -/
def flagBit (k : Nat) (b : Bool) : Byte := if b then 1#8 <<< k else 0

/-- The ten counters, 4 bytes each, in the report's order. -/
def Counters.bytes (c : Counters) : List Byte :=
  wordBytes c.rxChars ++ wordBytes c.txChars ++ wordBytes c.parityErrors ++ wordBytes c.framingErrors ++
    wordBytes c.overruns ++ wordBytes c.breaks ++ wordBytes c.gapCloses ++ wordBytes c.trialsFailed ++
    wordBytes c.eventsLost ++ wordBytes c.flushedEntries

/-- Bytes left: the current transmit record's length less its bytes sent, or 0 (R81, R133). -/
def Line.bytesLeft (l : Line) : Nat :=
  match l.tx.cur with
  | some c => c.record.len - c.bytesSent
  | none => 0

/-- Byte 4 of the Line Report. -/
def Line.flagByte (l : Line) : Byte :=
  flagBit 0 (l.set.flowMode = .inband) ||| flagBit 1 l.flow.ownPaused ||| flagBit 2 l.flow.peerPaused |||
    flagBit 3 l.rx.gapArmed ||| flagBit 4 l.set.closeOnError ||| flagBit 5 l.set.keepTrial |||
    flagBit 6 l.rx.lossPending ||| flagBit 7 l.rx.lossCarried

/-- The Line Report of a line as it stands (R133). -/
def Line.report (l : Line) : List Byte :=
  [l.state.code, (l.close.mode.map CloseMode.code).getD 0xFF, l.long.code, l.tx.st.code, l.flagByte,
    (l.rateIndex.map (BitVec.ofNat 8)).getD 0xFF] ++ count16 l.divisor ++
  [BitVec.ofNat 8 l.frame.dataBits, l.frame.parity.code, BitVec.ofNat 8 l.frame.stopBits,
    BitVec.ofNat 8 l.set.boundCq.val, BitVec.ofNat 8 l.set.highMark, BitVec.ofNat 8 l.set.lowMark,
    BitVec.ofNat 8 l.set.gap, BitVec.ofNat 8 l.set.breakLength] ++
  count16 l.set.pauseLimit ++ count16 l.bytesLeft ++
  [BitVec.ofNat 8 l.rx.fifo.length, BitVec.ofNat 8 l.rx.hold.length,
    BitVec.ofNat 8 l.rx.bufs.length ||| (BitVec.ofNat 8 l.events.length <<< 4), BitVec.ofNat 8 l.disc.attempts] ++
  l.counters.bytes

/-- The progress block: the seventeen heads in queue-number order (section 9.4). -/
def progressBytes (qs : Vector ReqQueue 17) : List Byte := qs.toList.flatMap fun q => count16 q.head

end Sys2Proof.Machine
end

