-- ==== Sys2Proof/Machine/Flags.lean ====
section
/-! DEFINITION. The flags and counters of the part: the saturating counters (R15), the words STATUS, NOTIFY and CONTROL
read (R143, R152, R179, section 12.8), the levels of the notification outputs (R143, R190), and the error summary of a
buffer (R72). -/

namespace Sys2Proof.Machine

/-- `n` increments of a saturating 32-bit counter: at 4294967295 it stays (R15). -/
def satAdd (c : Word) (n : Nat) : Word := BitVec.ofNat 32 (min (c.toNat + n) 4294967295)

/-- One increment of a saturating 32-bit counter (R15). -/
def satInc (c : Word) : Word := satAdd c 1

/-- The union of two error summaries: a flag already in the summary stays (R72). -/
def ErrorSet.union (a b : ErrorSet) : ErrorSet :=
  { parity := a.parity || b.parity, framing := a.framing || b.framing, overrun := a.overrun || b.overrun }

/-- The empty error summary. -/
def ErrorSet.empty : ErrorSet := { parity := false, framing := false, overrun := false }

/-- The summary that holds OVERRUN alone. -/
def ErrorSet.overrunOnly : ErrorSet := { parity := false, framing := false, overrun := true }

/-- The first-error offset after flags are added at `offset`: set when the summary first becomes non-empty (R72). -/
def firstErrorAfter (old : ErrorSet) (added : ErrorSet) (first : Option Nat) (offset : Nat) : Option Nat :=
  if old = ErrorSet.empty ∧ added ≠ ErrorSet.empty then some offset else first

/-- What a STATUS read returns (R179): 2–0 part state, 6–4 cause, 8 DISCARDED, 9 POST_REJECTED, 10 RETIRE_REJECTED. -/
def State.statusWord (s : State) : Word :=
  s.part.code.setWidth 32 ||| (s.cause.code.setWidth 32 <<< 4) ||| (if s.discarded then 0x100 else 0) |||
    (if s.postRejected then 0x200 else 0) ||| (if s.retireRejected then 0x400 else 0)

/-- Whether the notification state of completion queue `c` is ASSERTED. -/
def State.isAsserted (s : State) (c : CqNo) : Bool := decide (s.cplQueues[c].notif = .asserted)

/-- What a NOTIFY read returns (R143): 3–0 ASSERTED of CMQ0 to CMQ3, 8 FAULT. -/
def State.notifyWord (s : State) : Word :=
  (if s.isAsserted 0 then 1 else 0) ||| (if s.isAsserted 1 then 2 else 0) ||| (if s.isAsserted 2 then 4 else 0) |||
    (if s.isAsserted 3 then 8 else 0) ||| (if s.notifyFault then 0x100 else 0)

/-- Whether notification output INT`c` is asserted (R143, R150), which none is while RESET# is held low (R190). -/
def State.intAsserted (s : State) (c : CqNo) : Bool :=
  !s.resetHeld && (s.isAsserted c || (decide (c = 0) && s.notifyFault))

/-- What a read of the register window returns, in every part state (R152). A narrow access, POST, RETIRE and an offset
with no register read 0, and so does every register while RESET# is held low (R190). -/
def State.windowRead (s : State) (offset : Nat) (narrow : Bool) : Word :=
  if s.resetHeld ∨ narrow then 0
  else match offset with
    | 0x00 => if s.run then 1 else 0
    | 0x04 => s.statusWord
    | 0x08 => s.setupAddr
    | 0x14 => s.notifyWord
    | 0x18 => s.faultAddr
    | 0x1C => s.time
    | _ => 0

/-- The command that a write of `value` at `offset` of the register window is (R152, R178, R194, section 12.8): bits
that section 12.8 does not list are not examined, and a narrow write is ignored at every offset. -/
def windowWrite (offset : Nat) (narrow : Bool) (value : Word) : Instr :=
  if narrow then .registerWriteIgnored offset narrow value
  else match offset with
    | 0x00 => if value.getLsbD 1 then .softReset (value.getLsbD 0)
              else if value.getLsbD 0 then .runWritten1 else .runWritten0
    | 0x08 => .setupAddrWrite value
    | 0x0C => .post (value.extractLsb' 16 5) (value.extractLsb' 0 16)
    | 0x10 => if value.getLsbD 31 then .retireArm (value.extractLsb' 16 4) (value.extractLsb' 0 16)
              else .retire (value.extractLsb' 16 4) (value.extractLsb' 0 16)
    | _ => .registerWriteIgnored offset narrow value

end Sys2Proof.Machine
end

