-- ==== Sys2Proof/Machine/Access.lean ====
section
/-! DEFINITION. The places of the state under short names, the arithmetic of the rings (R134, R155), the window check
(R168) and the Memory Engine's requests and grants (R170 to R172). -/

namespace Sys2Proof.Machine

/-! ### Lines and queues by number -/

/-- The context of line `i`. -/
def State.line (s : State) (i : LineNo) : Line := s.lines[i]

/-- Line `i` replaced. -/
def State.setLine (s : State) (i : LineNo) (l : Line) : State := { s with lines := s.lines.set i l }

/-- Line `i` changed by `f`. -/
def State.updLine (s : State) (i : LineNo) (f : Line → Line) : State := s.setLine i (f (s.line i))

/-- Request queue `q`. -/
def State.rq (s : State) (q : RqNo) : ReqQueue := s.reqQueues[q]

/-- Request queue `q` replaced. -/
def State.setRq (s : State) (q : RqNo) (x : ReqQueue) : State := { s with reqQueues := s.reqQueues.set q x }

/-- Completion queue `c`. -/
def State.cq (s : State) (c : CqNo) : CplQueue := s.cplQueues[c]

/-- Completion queue `c` replaced. -/
def State.setCq (s : State) (c : CqNo) (x : CplQueue) : State := { s with cplQueues := s.cplQueues.set c x }

/-- The level of pin RXD`i` as a happening leaves it. -/
def State.setRxd (s : State) (i : LineNo) (v : Level) : State := { s with rxd := s.rxd.set i v }

/-- TXQ of line `i`: queue 1 + i (section 9.2). -/
def txq (i : LineNo) : RqNo := ⟨i.val + 1, by omega⟩

/-- RPQ of line `i`: queue 9 + i (section 9.2). -/
def rpq (i : LineNo) : RqNo := ⟨i.val + 9, by omega⟩

/-- What a queue number stands for (section 9.2). -/
inductive RqKind where
  | ctl
  | tx (line : LineNo)
  | rp (line : LineNo)
  deriving DecidableEq, Repr

/-- The consumer of a request queue (section 9.2). -/
def rqKind (q : RqNo) : RqKind :=
  if q.val = 0 then .ctl
  else if q.val ≤ 8 then .tx (Fin.ofNat 8 (q.val - 1)) else .rp (Fin.ofNat 8 (q.val - 9))

/-! ### Rings -/

/-- The slot after slot `n` in a ring of the given size. -/
def nextSlot (n : Nat) (size : Option Nat) : Nat := if n + 1 = size.getD 0 then 0 else n + 1

/-- A request queue is empty when its head equals its tail (R155). -/
def ReqQueue.isEmpty (x : ReqQueue) : Bool := x.head = x.tail

/-- The host address of the slot at the head of request queue `q` (R155). -/
def ReqQueue.headAddr (x : ReqQueue) (q : RqNo) : Word := x.base + BitVec.ofNat 32 (entrySize q * x.head)

/-- The number of entries from `from_` up to `to_` in a ring of the given size: the difference modulo the size. -/
def ringDist (to_ from_ size : Nat) : Nat := (to_ + size - from_) % size

/-- The unretired count of a completion queue (R134). -/
def CplQueue.unretired (x : CplQueue) : Nat := ringDist x.tail x.head (x.size.getD 0)

/-- A completion queue is full when its unretired count is size − 1 (R134, R136). -/
def CplQueue.isFull (x : CplQueue) : Bool := x.unretired + 1 = x.size.getD 0

/-- The host address of the slot at the tail of a completion queue (R134). -/
def CplQueue.tailAddr (x : CplQueue) : Word := x.base + BitVec.ofNat 32 (16 * x.tail)

/-! ### The window check -/

/-- Whether one window holds the permission and contains the whole range of `n` bytes from `a` (R167, R168). -/
def Window.grants (w : Window) (toWrite : Bool) (a n : Nat) : Bool :=
  w.len ≠ 0 && (if toWrite then w.write else w.read) && decide (w.base.toNat ≤ a) &&
    decide (a + n ≤ w.base.toNat + w.len.toNat)

/-- A range of `n` bytes from `a` is allowed for WRITE (`toWrite`) or for READ (R168). -/
def rangeAllowed (ws : List Window) (toWrite : Bool) (a : Word) (n : Nat) : Bool :=
  decide (1 ≤ n) && decide (a.toNat + n ≤ maxAddress + 1) && ws.any fun w => w.grants toWrite a.toNat n

/-! ### Requests -/

/-- The classes of accesses (R171). -/
inductive ReqClass where | A | B | C | D
  deriving DecidableEq, Repr

/-- The class of an access by what it is (R171). The Setup Record read is granted at once when the Engine is idle; where
it has to wait, behind a soft reset, it waits in class A, DESIGN CHOICE (notes/assumptions/10.md). -/
def Requester.cls : Requester → ReqClass
  | .setupRead => .A
  | .zeroProgress => .A
  | .progress => .A
  | .body _ => .A
  | .headWord _ => .A
  | .chunk _ => .B
  | .dataRead _ => .C
  | .fetch _ => .D
  | .tableRead => .D
  | .reportWrite => .D

/-- The member of a class that makes a request: the consuming line, or the Control Unit, 8 (R171, R172). -/
def Requester.member : Requester → Member
  | .chunk i => i.castSucc
  | .dataRead i => i.castSucc
  | .fetch q =>
    match rqKind q with
    | .ctl => 8
    | .tx i => i.castSucc
    | .rp i => i.castSucc
  | _ => 8

/-- A request joins the back of its class's list (R170). -/
def Engine.push (e : Engine) (r : Request) : Engine :=
  match r.requester.cls with
  | .A => { e with listA := e.listA ++ [r] }
  | .B => { e with listB := e.listB ++ [r] }
  | .C => { e with listC := e.listC ++ [r] }
  | .D => { e with listD := e.listD ++ [r] }

/-- A block makes a request of the Memory Engine (R170). -/
def State.request (s : State) (r : Request) : State := { s with engine := s.engine.push r }

/-- No request waits in any class. -/
def Engine.noneWaiting (e : Engine) : Bool :=
  e.listA.isEmpty && e.listB.isEmpty && e.listC.isEmpty && e.listD.isEmpty

/-- The members in cyclic order, beginning with the one after `last` (R172). -/
def membersAfter (last : Member) : List Member := (List.range 9).map fun k => last + 1 + Fin.ofNat 9 k

/-- The first member in cyclic order after `last` that has a waiting request, with its oldest one (R172). -/
def roundRobin (last : Member) (rs : List Request) : Option (Member × Request) :=
  (membersAfter last).findSome? fun m => (rs.find? fun r => r.requester.member = m).map fun r => (m, r)

/-- The request the Engine grants next, and the Engine without it (R171, R172): class A in the order of request, then
classes B, C and D round-robin. -/
def Engine.pick (e : Engine) : Option (Request × Engine) :=
  match e.listA with
  | r :: rest => some (r, { e with listA := rest })
  | [] =>
    match roundRobin e.lastB e.listB with
    | some (m, r) => some (r, { e with listB := e.listB.erase r, lastB := m })
    | none =>
      match roundRobin e.lastC e.listC with
      | some (m, r) => some (r, { e with listC := e.listC.erase r, lastC := m })
      | none =>
        match roundRobin e.lastD e.listD with
        | some (m, r) => some (r, { e with listD := e.listD.erase r, lastD := m })
        | none => none

/-- Every waiting request is removed unperformed, untaken results are dropped, and the access in progress is let end
with its result undelivered (R177, R187, R188). The last granted members are kept. DEDUCED (notes/assumptions/24.md). -/
def Engine.discardAll (e : Engine) : Engine :=
  { e with
    access := e.access.map fun a => { a with deliver := false }
    listA := [], listB := [], listC := [], listD := [], results := [] }

/-! ### Results -/

/-- The result that waits for a requester, if any (R173). -/
def State.result? (s : State) (r : Requester) : Option Result :=
  s.engine.results.find? fun x => x.requester = r

/-- The requester takes its result (R173). -/
def State.dropResult (s : State) (r : Requester) : State :=
  { s with engine := { s.engine with results := s.engine.results.eraseP fun x => x.requester = r } }

end Sys2Proof.Machine
end

