-- ==== Sys2Proof/Machine/LineOps.lean ====
section
/-! DEFINITION. The named operations over one line context: the frame on the wire (chapter 2), flow tests (chapter 6),
joins and discards of the receive FIFO, the buffer list and the matcher (chapter 4), the transmitter (chapter 5), the
event list (R13), discovery (chapter 3) and the aborts of a close (chapter 1). They act on the line alone; what they ask
of the Memory Engine and of the queues is done by Machine/Ops.lean. -/

namespace Sys2Proof.Machine

/-! ### The frame on the wire -/

/-- The number of parity bits of a frame. -/
def Frame.parityBits (f : Frame) : Nat := if f.parity = .noParity then 0 else 1

/-- The frame length: one start bit, the data bits, the parity bit when present, the stop bits (R18). -/
def Frame.bitCount (f : Frame) : Nat := 1 + f.dataBits + f.parityBits + f.stopBits

/-- The low data bits of a value, least significant first (R18). -/
def Frame.dataOf (f : Frame) (v : Byte) : List Bool := (List.range f.dataBits).map v.getLsbD

/-- The parity bit a frame requires for its data bits (R18). -/
def requiredParity (p : Parity) (data : List Bool) : Bool :=
  match p with
  | .noParity => true
  | .even => data.foldl xor false
  | .odd => !data.foldl xor false
  | .mark => true
  | .space => false

/-- The bits of a character on the wire, start bit first, mark as `true` (R18, R85, R88). -/
def Frame.wireBits (f : Frame) (v : Byte) : List Bool :=
  [false] ++ f.dataOf v ++ (if f.parity = .noParity then [] else [requiredParity f.parity (f.dataOf v)]) ++
    List.replicate f.stopBits true

/-- The value formed from data bits, the first as bit 0 (R18). -/
def valueOf (data : List Bool) : Byte := data.foldr (fun b (v : Byte) => (v <<< 1) ||| (if b then 1 else 0)) 0

/-- What a completed character carries (R21). -/
structure Received where
  value        : Byte
  parityError  : Bool
  framingError : Bool
  deriving DecidableEq, Repr

/-- The character a run of sampled bits completes (R18, R21): none where the bits are no whole frame, where the start
bit is not space, or where every bit is space, since that begins a break. -/
def Frame.receive (f : Frame) (bits : List Bool) : Option Received :=
  if bits.length = f.bitCount ∧ bits.head? = some false ∧ bits.any id then
    let data := (bits.drop 1).take f.dataBits
    let par := ((bits.drop (1 + f.dataBits)).take f.parityBits)
    some { value := valueOf data
           parityError := par.any fun b => b != requiredParity f.parity data
           framingError := (bits.drop (1 + f.dataBits + f.parityBits)).any fun b => !b }
  else none

/-- The frame in which TRIAL assembles: 8 data bits, no parity, 1 stop bit (R19, R44). -/
def trialFrame : Frame := { dataBits := 8, parity := .noParity, stopBits := 1 }

/-- The line's character time in reference ticks: frame length times divisor (R17). -/
def Line.charTime (l : Line) : Nat := l.frame.bitCount * l.divisor

/-! ### Line-state questions -/

/-- The line is in the graceful drain of a close (R6). -/
def Line.draining (l : Line) : Bool := decide (l.state = .closing ∧ l.close.phase = some .drain)

/-- The line is in the wind-up of a close (R9). -/
def Line.windingUp (l : Line) : Bool := decide (l.state = .closing ∧ l.close.phase = some .windUp)

/-- The line is in SEEK or TRIAL. -/
def Line.discovering (l : Line) : Bool := decide (l.state = .seek ∨ l.state = .trial)

/-- The flow logic is active (R98). -/
def Line.flowActive (l : Line) : Bool :=
  decide (l.set.flowMode = .inband) && (decide (l.state = .opened) || l.draining)

/-- A FLUSH_TX is pending. -/
def PendingLong.isFlush : PendingLong → Bool
  | .flushTx _ => true
  | _ => false

/-! ### Timers -/

/-- A timer stated in ms, set to `ms`: off at 0, otherwise that many milliseconds, held in µs (R154). -/
def msTimer (ms : Nat) : Option Nat := if ms = 0 then none else some (ms * 1000)

/-- One microsecond passes for a timer (R154): at 0 its expiry is due. No expiry is held back until then, DESIGN CHOICE
(notes/assumptions/7.md; notes/assumptions/8.md). -/
def tickTimer (t : Option Nat) : Option Nat := t.map (· - 1)

/-! ### The event list -/

/-- A LINE_EVENT other than RATE_NOT_FOUND is appended, or dropped from a full list and counted (R13). -/
def Line.appendEvent (l : Line) (c : Completion) : Line :=
  if l.events.length < 4 then { l with events := l.events ++ [c] }
  else { l with counters := { l.counters with eventsLost := satInc l.counters.eventsLost } }

/-- A LINE_EVENT of this line: it is bound for the line's bound completion queue (R138). -/
def Line.event (l : Line) (time : Word) (b : CplBody) : Completion :=
  { dest := l.set.boundCq, time := time, body := b }

/-- A CONTROL_DONE a line posts for a long request, always for CMQ0 (R115, R138). `code` is 6 for FLUSH_TX, 8 for
CLOSE_LINE. -/
def longDone (i : LineNo) (time : Word) (code : Byte) (tag : Half) (st : Status) : Completion :=
  { dest := 0, time := time, body := .controlDone code (some i) tag st }

/-! ### Flow logic: own pause (R100, R101) -/

/-- The rising test with the occupancy as it stands, and what it does in each combination (R100). -/
def Line.flowRise (l : Line) : Line :=
  if l.flowActive ∧ l.set.highMark ≤ l.rx.fifo.length then
    match l.flow.ownPaused, l.flow.slot with
    | false, none => { l with flow := { l.flow with ownPaused := true, slot := some .pause } }
    | false, some .resume => { l with flow := { l.flow with ownPaused := true, slot := none } }
    | _, _ => l
  else l

/-- The falling test with the occupancy as it stands, and what it does in each combination (R101). -/
def Line.flowFall (l : Line) : Line :=
  if l.flowActive ∧ l.rx.fifo.length ≤ l.set.lowMark then
    match l.flow.ownPaused, l.flow.slot with
    | true, none => { l with flow := { l.flow with ownPaused := false, slot := some .resume } }
    | true, some .pause => { l with flow := { l.flow with ownPaused := false, slot := none } }
    | _, _ => l
  else l

/-! ### The receive FIFO (R24, R26, R28, R29, R30) -/

/-- The gap timer restarts with the gap in character times, unless the gap is 0 (R30). -/
def Line.gapRestart (l : Line) : Line :=
  if l.set.gap = 0 then l else { l with rx := { l.rx with gapTimer := some (l.set.gap * l.charTime) } }

/-- An entry joins the back of the FIFO with loss_before copied from loss_pending, which then clears (R28); the flow
logic makes the rising test (R100). -/
def Line.join (l : Line) (e : Bool → FifoEntry) : Line :=
  Line.flowRise { l with rx := { l.rx with fifo := l.rx.fifo ++ [e l.rx.lossPending], lossPending := false } }

/-- A CHARACTER entry joins: gap armed is set, and the counters of R24 rise. -/
def Line.joinChar (l : Line) (v : Byte) (pe fe : Bool) : Line :=
  Line.join
    { l with
      rx := { l.rx with gapArmed := true }
      counters := { l.counters with
        rxChars := satInc l.counters.rxChars
        parityErrors := if pe then satInc l.counters.parityErrors else l.counters.parityErrors
        framingErrors := if fe then satInc l.counters.framingErrors else l.counters.framingErrors } }
    (FifoEntry.char v pe fe)

/-- Something is lost to a full FIFO: overruns rises and loss_pending is set (R24, R26). -/
def Line.lose (l : Line) : Line :=
  { l with
    rx := { l.rx with lossPending := true }
    counters := { l.counters with overruns := satInc l.counters.overruns } }

/-- The FIFO is discarded as a whole: each entry counts in flushed_entries; loss_pending, gap armed and loss_carried
clear (R29, R62). The flow logic's falling test is the caller's. -/
def Line.discardFifo (l : Line) : Line :=
  { l with
    rx := { l.rx with fifo := [], lossPending := false, gapArmed := false, lossCarried := false }
    counters := { l.counters with flushedEntries := satAdd l.counters.flushedEntries l.rx.fifo.length } }

/-! ### Buffers and the matcher (chapter 4) -/

/-- The record is invalid. -/
def RxBuf.isInvalid (b : RxBuf) : Bool :=
  match b.cond with
  | .invalid _ => true
  | _ => false

/-- The front record of the buffer list is invalid (R57, R58). -/
def Line.frontInvalid (l : Line) : Bool := l.rx.bufs.head?.any RxBuf.isInvalid

/-- The buffer list holds a valid front record (R58). -/
def Line.frontValid (l : Line) : Bool := l.rx.bufs.head?.any fun b => !b.isInvalid

/-- The line has a started buffer (R56). -/
def Line.hasStarted (l : Line) : Bool :=
  l.rx.bufs.head?.any fun b => match b.cond with
    | .started _ _ _ => true
    | _ => false

/-- The stored count of the started buffer, 0 without one. -/
def Line.stored (l : Line) : Nat :=
  match l.rx.bufs with
  | b :: _ => match b.cond with
    | .started n _ _ => n
    | _ => 0
  | [] => 0

/-- The length of the front record, 0 without one. -/
def Line.frontLength (l : Line) : Nat := (l.rx.bufs.head?.map RxBuf.len).getD 0

/-- Bytes are stored in the started buffer: they enter the write chunk in order (R63). -/
def Line.store (l : Line) (bs : List Byte) : Line :=
  match l.rx.bufs with
  | b :: rest =>
    match b.cond with
    | .started n e f =>
      if bs = [] then l
      else { l with rx := { l.rx with
              bufs := { b with cond := .started (n + bs.length) e f } :: rest
              chunkAddr := if l.rx.chunk = [] then b.addr + BitVec.ofNat 32 n else l.rx.chunkAddr
              chunk := l.rx.chunk ++ bs } }
    | _ => l
  | [] => l

/-- The bytes of the match hold are stored and the hold becomes empty. -/
def Line.releaseHold (l : Line) : Line :=
  let l' := l.store l.rx.hold
  { l' with rx := { l'.rx with hold := [] } }

/-- Flags join the error summary of the started buffer at an offset (R72). -/
def Line.addErrors (l : Line) (added : ErrorSet) (offset : Nat) : Line :=
  match l.rx.bufs with
  | b :: rest =>
    match b.cond with
    | .started n e f =>
      { l with rx := { l.rx with
          bufs := { b with cond := .started n (e.union added) (firstErrorAfter e added f offset) } :: rest } }
    | _ => l
  | [] => l

/-- A waiting front record becomes started, with the loss of loss_carried at offset 0 (R59). -/
def Line.startBuffer (l : Line) : Line :=
  match l.rx.bufs with
  | b :: rest =>
    match b.cond with
    | .waiting =>
      { l with rx := { l.rx with
          bufs := { b with cond := if l.rx.lossCarried then .started 0 ErrorSet.overrunOnly (some 0)
                                   else .started 0 ErrorSet.empty none } :: rest
          lossCarried := false, hold := [], written := 0 } }
    | _ => l
  | [] => l

/-- The RX_DONE of a record of this line, bound for the line's bound completion queue (R74). -/
def Line.rxDone (l : Line) (i : LineNo) (time : Word) (b : RxBuf) (count : Nat) (reason : RxReason)
    (e : ErrorSet) (f : Option Nat) (delim : Option Nat) : Completion :=
  { dest := l.set.boundCq, time := time, body := .rxDone i b.tag count reason e f delim }

/-- The started buffer closes: the record leaves the list, the matcher begins afresh and the RX_DONE enters the receive
pending slot (R73). What is left in the write chunk is its closing chunk. -/
def Line.closeBuffer (l : Line) (i : LineNo) (time : Word) (reason : RxReason) (delim : Option Nat) : Line :=
  match l.rx.bufs with
  | b :: rest =>
    match b.cond with
    | .started n e f =>
      { l with rx := { l.rx with
          bufs := rest, hold := [], slot := some (l.rxDone i time b n reason e f delim) } }
    | _ => l
  | [] => l

/-- The reason with which a record's fault is answered (R57). -/
def RecordFault.reason : RecordFault → RxReason
  | .badRecord => .badRecord
  | .addressFault => .addressFault

/-- A front record with no byte stored is answered with count 0 (R9, R57). -/
def Line.answerFront (l : Line) (i : LineNo) (time : Word) (reason : RxReason) : Line :=
  match l.rx.bufs with
  | b :: rest =>
    { l with rx := { l.rx with
        bufs := rest, slot := some (l.rxDone i time b 0 reason ErrorSet.empty none none) } }
  | [] => l

/-- The longest suffix of `w` that is the whole of a delimiter of the table (R68, step 1). -/
def wholeMatch (ds : List Delim) (w : List Byte) : Option (List Byte) :=
  w.tails.find? fun u => u ≠ [] ∧ ds.any fun d => d.bytes = u

/-- The longest suffix of `w` that is a proper prefix of a delimiter of the table; it may be empty (R68, step 2). -/
def newHold (ds : List Delim) (w : List Byte) : List Byte :=
  (w.tails.find? fun u => ds.any fun d => u.length < d.bytes.length ∧ u.isPrefixOf d.bytes).getD []

/-- The index of the delimiter with the given bytes. -/
def delimIndex (ds : List Delim) (u : List Byte) : Nat := ds.findIdx fun d => d.bytes = u

/-- The action of the delimiter with the given index. -/
def delimAction (ds : List Delim) (k : Nat) : DelimAction := (ds[k]?.map Delim.action).getD .drop

/-- Matching one clean character (R68 to R70). -/
def Line.matchChar (l : Line) (i : LineNo) (time : Word) (c : Byte) : Line :=
  let w := l.rx.hold ++ [c]
  match wholeMatch l.rx.delims w with
  | some u =>
    let l1 := l.store (w.take (w.length - u.length))
    let l2 := { l1 with rx := { l1.rx with hold := [] } }
    let k := delimIndex l.rx.delims u
    match delimAction l.rx.delims k with
    | .keepAndClose => (l2.store u).closeBuffer i time .delimiter (some k)
    | .dropAndClose => l2.closeBuffer i time .delimiter (some k)
    | .drop => l2
  | none =>
    let h := newHold l.rx.delims w
    let l1 := l.store (w.take (w.length - h.length))
    let l2 := { l1 with rx := { l1.rx with hold := h } }
    if l2.stored + h.length = l2.frontLength then l2.releaseHold.closeBuffer i time .full none else l2

/-- An errored character (R71): released hold, stored as data, its flags in the summary, then FULL or ERROR. -/
def Line.storeErrored (l : Line) (i : LineNo) (time : Word) (v : Byte) (pe fe : Bool) : Line :=
  let l1 := l.releaseHold
  let l2 := (l1.store [v]).addErrors { parity := pe, framing := fe, overrun := false } l1.stored
  if l2.stored = l2.frontLength then l2.closeBuffer i time .full none
  else if l2.set.closeOnError then l2.closeBuffer i time .error none
  else l2

/-- OVERRUN joins the summary after the hold is released, at the stored count (R59 to R61). -/
def Line.noteLoss (l : Line) (loss : Bool) : Line :=
  if loss then (l.releaseHold).addErrors ErrorSet.overrunOnly l.releaseHold.stored else l

/-- The writer takes a CHARACTER entry for the front record (R59). -/
def Line.takeChar (l : Line) (i : LineNo) (time : Word) (v : Byte) (pe fe loss : Bool) : Line :=
  let l1 := l.startBuffer.noteLoss loss
  if pe ∨ fe then l1.storeErrored i time v pe fe else l1.matchChar i time v

/-- A marker without a started buffer: its loss is carried to the next buffer (R60 to R62). -/
def Line.carryLoss (l : Line) (loss : Bool) : Line :=
  if loss then { l with rx := { l.rx with lossCarried := true } } else l

/-! ### The transmitter (chapter 5) -/

/-- The current record ends with a status: the transmitter becomes TX_IDLE with an empty FIFO, and a TX_DONE enters the
transmit pending slot unless QUIET suppresses it (R90). -/
def Line.endRecord (l : Line) (i : LineNo) (time : Word) (st : Status) : Line :=
  match l.tx.cur with
  | some c =>
    { l with tx := { l.tx with
        st := .idle, cur := none, ending := none, fifo := []
        slot := if c.record.quiet ∧ st = .ok then l.tx.slot
                else some { dest := l.set.boundCq, time := time,
                            body := .txDone i c.record.tag c.bytesSent st } } }
  | none => l

/-- A delivered transmit record is answered at once with 0 bytes sent (R79, R93). -/
def Line.answerTx (l : Line) (i : LineNo) (time : Word) (tag : Half) (st : Status) : Line :=
  { l with tx := { l.tx with
      slot := some { dest := l.set.boundCq, time := time, body := .txDone i tag 0 st } } }

/-- The status with which a record ends that is to end with `first`, if any, when a cause with status `st` is taken. Two
causes with different statuses leave a free value (R84, R92, R96; notes/assumptions/6.md). -/
def endingStatus (i : LineNo) (time : Word) (first : Option Status) (st : Status) : Status :=
  match first with
  | none => st
  | some f => if f = st then f else if Config.laterCauseWins i time then st else f

/-- The current record is to end when the character on the output has been sent: no further character of it starts. That
its FIFO is emptied at the taking, and that no further read of it is requested, is R84's for a failed read and a DESIGN
CHOICE for a flush and an abort (R8, R92, R96; notes/assumptions/32.md). -/
def Line.endAfterOutput (l : Line) (i : LineNo) (time : Word) (st : Status) : Line :=
  { l with tx := { l.tx with ending := some (endingStatus i time l.tx.ending st), fifo := [] } }

/-- The break on the output ends at once: the break timer stops and the output returns to mark (R89). -/
def Line.stopBreak (l : Line) : Line := { l with tx := { l.tx with output := .mark, breakTimer := none } }

/-- The transmitter enters TX_BREAK (R89). -/
def Line.enterBreak (l : Line) : Line :=
  { l with tx := { l.tx with
      st := .brk, output := .brk, breakTimer := some (l.set.breakLength * l.charTime) } }

/-- The value of a flow character on this line. -/
def Line.flowValue (l : Line) : FlowChar → Byte
  | .pause => l.set.pauseValue
  | .resume => l.set.resumeValue

/-- A pending flow character starts on the output; the slot empties (R88, R102). -/
def Line.startFlow (l : Line) (c : FlowChar) : Line :=
  { l with
    tx := { l.tx with output := .flow c (l.frame.wireBits (l.flowValue c)) }
    flow := { l.flow with slot := none } }

/-- The front byte of the transmit FIFO starts on the output (R85). -/
def Line.startData (l : Line) : Line :=
  match l.tx.fifo with
  | v :: rest => { l with tx := { l.tx with output := .data (l.frame.wireBits v), fifo := rest } }
  | [] => l

/-- A data character may start (R85, R87). -/
def Line.dataMayStart (l : Line) : Bool :=
  decide (l.tx.st = .sending) && l.tx.ending.isNone && !l.flow.peerPaused

/-- The transmitter chooses the next thing on an output at mark (R85). -/
def Line.chooseOutput (l : Line) : Line :=
  if l.tx.output = .mark then
    match l.flow.slot with
    | some c =>
      if (l.state = .opened ∨ l.draining) ∧ l.tx.st ≠ .brk then l.startFlow c
      else if l.dataMayStart then l.startData else l
    | none => if l.dataMayStart then l.startData else l
  else l

/-- The next data read is due (R83). A record that is to end asks for none: after a failed read by R84, after a flush or an
abort by a DESIGN CHOICE (notes/assumptions/32.md). -/
def Line.readDue (l : Line) : Bool :=
  decide (l.tx.st = .sending) && l.tx.ending.isNone && l.tx.readInFlight.isNone && decide (l.tx.fifo.length ≤ 16) &&
    l.tx.cur.any fun c => c.bytesRead < c.record.len

/-- The line holds a FLUSH_TX whose CONTROL_DONE has not been appended, in a line state of its own (R80). -/
def Line.flushing (l : Line) : Bool :=
  l.long.isFlush && decide (l.state = .seek ∨ l.state = .trial ∨ l.state = .opened)

/-- The ordinary-fetch case of R80, with the TXQ head as given. -/
def Line.wantsOrdinary (l : Line) (head : Nat) : Bool :=
  (decide (l.state = .opened) && !l.long.isFlush) ||
    (l.draining && !l.close.txDone && decide (l.close.boundary ≠ some head))

/-- The flush-fetch case of R80, with the TXQ head as given. While a CONTROL_DONE is due the line makes no fetch
(R94). -/
def Line.wantsFlush (l : Line) (head : Nat) : Bool :=
  l.flushing && l.tx.flushDue.isNone && decide (l.tx.flushBoundary ≠ some head)

/-- FLUSH_TX acts on the current record by the transmitter's state (R92). -/
def Line.flushCurrent (l : Line) (i : LineNo) (time : Word) : Line :=
  match l.tx.cur with
  | none => l
  | some _ =>
    match l.tx.output with
    | .data _ => l.endAfterOutput i time .aborted
    | .brk => l.stopBreak.endRecord i time .aborted
    | _ => l.endRecord i time .aborted

/-- The transmit aborts of a close (R8, R96): a character on the output is sent whole first. -/
def Line.abortCurrent (l : Line) (i : LineNo) (time : Word) : Line :=
  match l.tx.cur with
  | none => l
  | some _ =>
    match l.tx.output with
    | .data _ => l.endAfterOutput i time .aborted
    | .flow _ _ => l.endAfterOutput i time .aborted
    | .brk => l.stopBreak.endRecord i time .aborted
    | .mark => l.endRecord i time .aborted

/-! ### Closes (chapter 1) -/

/-- The flow logic stops: an unsent flow character is dropped and the pause-limit timer stops (R109). -/
def Line.stopFlow (l : Line) : Line := { l with flow := { l.flow with slot := none, timer := none } }

/-- The line's receive and discovery mechanisms stop as it leaves SEEK, TRIAL or OPEN for CLOSING: the assembler is IDLE,
and the gap timer, the discovery-timeout timer and the trial window stop (R5, R19, R23, R50). -/
def Line.stopInput (l : Line) : Line :=
  { l with
    rx := { l.rx with asm := .idle, gapTimer := none }
    disc := { l.disc with timer := none, window := none, measuring := false } }

/-- The aborts of R8: the flow logic stops, the FIFO and the hold are discarded, the flush fields become absent and the
current record is aborted. What is left of the close waits for the output to be at mark (R96). -/
def Line.abort (l : Line) (i : LineNo) (time : Word) : Line :=
  let l1 := l.stopFlow.discardFifo.stopInput
  let l2 := { l1 with
    rx := { l1.rx with hold := [] }
    tx := { l1.tx with flushBoundary := none, flushPhase := none, flushDue := none }
    close := { l1.close with phase := some .aborting, drainTimer := none } }
  l2.abortCurrent i time

/-- The close that ends a failed discovery (R11). -/
def Line.failDiscovery (l : Line) (i : LineNo) (time : Word) (r : FailReason) : Line :=
  Line.abort
    { l with
      state := .closing
      close := { l.close with mode := some .immediate, failure := some (r, l.disc.attempts) } } i time

/-! ### Discovery (chapter 3) -/

/-- A fresh window: intervals counted 0, shortest interval and candidate absent, no trial values held (R43). The
attempts failed and the discovery-timeout timer are kept. DEDUCED (notes/assumptions/18.md). -/
def Discovery.freshWindow (d : Discovery) : Discovery :=
  { d with intervals := 0, shortest := none, candidate := none, held := [], measuring := false }

/-- The line enters SEEK with fresh progress and the discovery-timeout timer started unless the timeout is 0 (R39). -/
def Line.enterSeek (l : Line) : Line :=
  { l with
    state := .seek, rateIndex := none
    rx := { l.rx with asm := .idle, gapTimer := none }
    disc := { Discovery.reset with timer := msTimer l.set.discTimeout } }

/-- A failed attempt (R43). -/
def Line.failAttempt (l : Line) (i : LineNo) (time : Word) : Line :=
  let n := min (l.disc.attempts + 1) 255
  let l1 := { l with
    rx := { l.rx with asm := .idle }
    disc := { l.disc with attempts := n, held := [], window := none, measuring := false }
    counters := { l.counters with trialsFailed := satInc l.counters.trialsFailed } }
  if l.set.attemptLimit ≠ 0 ∧ n = l.set.attemptLimit then l1.failDiscovery i time .attempts
  else { l1 with state := .seek, disc := l1.disc.freshWindow }

/-- The index of the table entry whose range contains an interval (R35, R42). -/
def findRate (t : List RateEntry) (n : Nat) : Option Nat :=
  t.findIdx? fun e => decide (e.min ≤ n) && decide (n ≤ e.max)

/-- The divisor of a table entry. -/
def rateDivisor (t : List RateEntry) (k : Nat) : Nat := (t[k]?.map RateEntry.divisor).getD 32

/-- The window is evaluated (R42): a candidate puts the line into TRIAL (R44), none fails the attempt. -/
def Line.evaluateWindow (l : Line) (i : LineNo) (time : Word) (t : List RateEntry) : Line :=
  match l.disc.shortest.bind (findRate t) with
  | some k =>
    { l with
      state := .trial
      rx := { l.rx with asm := .hunt }
      disc := { l.disc with candidate := some k, held := [], window := some (200 * rateDivisor t k) } }
  | none => l.failAttempt i time

/-- A measured low interval (R41): a glitch and an interval past 65535 ticks are ignored, any other is counted, and the
count that reaches the seek window evaluates it (R42). -/
def Line.takeInterval (l : Line) (i : LineNo) (time : Word) (t : List RateEntry) (ticks : Nat) : Line :=
  let l0 := { l with disc := { l.disc with measuring := false } }
  if ticks < 16 ∨ 65535 < ticks then l0
  else
    let l1 := { l0 with disc := { l0.disc with
      intervals := l.disc.intervals + 1
      shortest := some (match l.disc.shortest with
        | none => ticks
        | some m => min m ticks) } }
    if l1.set.seekWindow ≤ l1.disc.intervals then l1.evaluateWindow i time t else l1

/-- The number of 1 bits of a value. -/
def weight (v : Byte) : Nat := ((List.range 8).filter fun k => v.getLsbD k).length

/-- A trial pair is unambiguous: both characters below 0x80, one of even and one of odd weight (R40). -/
def unambiguous (a b : Byte) : Bool :=
  decide (a.toNat < 0x80) && decide (b.toNat < 0x80) && decide (weight a % 2 ≠ weight b % 2)

/-- The data bits and parity inferred from bit 7 of the values received for the even-weight and for the odd-weight
trial character (R47). -/
def inferFormat (even odd : Bool) : Nat × Parity :=
  match even, odd with
  | false, false => (8, .noParity)
  | true, true => (7, .mark)
  | false, true => (7, .even)
  | true, false => (7, .odd)

/-- The inferred frame of a successful trial: `v1` and `v2` are the values received for trial characters 1 and 2
(R47, R48). -/
def Line.inferFrame (l : Line) (v1 v2 : Byte) : Frame :=
  let p := if weight l.set.trial1 % 2 = 0 then inferFormat (v1.getLsbD 7) (v2.getLsbD 7)
           else inferFormat (v2.getLsbD 7) (v1.getLsbD 7)
  { dataBits := p.1, parity := p.2, stopBits := l.set.stopAfter }

/-- A value masked to a number of data bits (R49). -/
def maskData (n : Nat) (v : Byte) : Byte := v &&& BitVec.ofNat 8 (2 ^ n - 1)

/-- The kept trial characters join the FIFO and restart the gap timer (R34, R49). -/
def Line.keepTrialPair (l : Line) (v1 v2 : Byte) : Line :=
  (((l.joinChar (maskData l.frame.dataBits v1) false false).joinChar
    (maskData l.frame.dataBits v2) false false)).gapRestart

/-- Discovery succeeds with the two trial values received (R48, R49, R34, R107). -/
def Line.succeed (l : Line) (i : LineNo) (time : Word) (t : List RateEntry) (v1 v2 : Byte) : Line :=
  let k := l.disc.candidate.getD 0
  let f := l.inferFrame v1 v2
  let l1 := { l with
    state := .opened, divisor := rateDivisor t k, rateIndex := some k, frame := f
    disc := { l.disc.freshWindow with timer := none, window := none }
    flow := Flow.reset
    rx := { l.rx with asm := .hunt, fifo := [], lossPending := false, gapArmed := false, gapTimer := none } }
  let l2 := if l.set.keepTrial then l1.keepTrialPair v1 v2 else l1
  l2.appendEvent (l2.event time (.rateFound i k f (rateDivisor t k)))

/-- A character completes in TRIAL (R45): the attempt fails, the first trial character is held, or discovery
succeeds. -/
def Line.trialChar (l : Line) (i : LineNo) (time : Word) (t : List RateEntry) (c : Received) : Line :=
  let seen := c.value &&& 0x7F#8
  match l.disc.held with
  | [] =>
    if c.framingError ∨ seen ≠ l.set.trial1 then l.failAttempt i time
    else { l with rx := { l.rx with asm := .hunt }, disc := { l.disc with held := [c.value] } }
  | v1 :: _ =>
    if c.framingError ∨ seen ≠ l.set.trial2 then l.failAttempt i time
    else l.succeed i time t v1 c.value

/-! ### Characters in OPEN -/

/-- A flow character received from the peer (R104). -/
def Line.peerFlow (l : Line) (c : FlowChar) : Line :=
  match c with
  | .pause => { l with flow := { l.flow with peerPaused := true, timer := msTimer l.set.pauseLimit } }
  | .resume =>
    if l.flow.peerPaused then { l with flow := { l.flow with peerPaused := false, timer := none } } else l

/-- The flow character a received character is, if it is diverted to the flow logic (R24, R25). -/
def Line.divert (l : Line) (c : Received) : Option FlowChar :=
  if l.set.flowMode = .inband ∧ c.parityError = false ∧ c.framingError = false then
    if c.value = l.set.pauseValue then some .pause
    else if c.value = l.set.resumeValue then some .resume
    else none
  else none

/-- A character completes in OPEN (R24): diverted, lost or joined; in all three cases the gap timer restarts. -/
def Line.openChar (l : Line) (c : Received) : Line :=
  let l0 := l.gapRestart
  match l.divert c with
  | some f => l0.peerFlow f
  | none => if 32 ≤ l.rx.fifo.length then l0.lose else l0.joinChar c.value c.parityError c.framingError

/-- A break begins in OPEN (R26). -/
def Line.openBreak (l : Line) : Line :=
  let l0 := { l with
    rx := { l.rx with asm := .brk, gapTimer := none }
    counters := { l.counters with breaks := satInc l.counters.breaks } }
  if 32 ≤ l.rx.fifo.length then l0.lose
  else Line.join { l0 with rx := { l0.rx with gapArmed := false } } FifoEntry.brk

end Sys2Proof.Machine
end

