-- ==== Sys2Proof/Machine/Memory.lean ====
section
/-! DEFINITION. Host memory as the part's own accesses have written it: a list of (address, byte) pairs with the
addresses strictly rising. An address that is not listed reads as no value: the part has written nothing there, and what
the host keeps there is the host's, DESIGN CHOICE (notes/assumptions/2.md). The part's reads do not go through this list: the bytes of
a read come with the host bus's response (R173, R192). -/

namespace Sys2Proof.Machine

/-- The byte the part has written at an address, or none where it has written nothing. -/
def memRead : List Host.Cell → Nat → Option Byte
  | [], _ => none
  | (a, b) :: m, x => if x = a then some b else memRead m x

/-- Writing one byte keeps the addresses strictly rising. -/
def memWrite : List Host.Cell → Nat → Byte → List Host.Cell
  | [], x, v => [(x, v)]
  | (a, b) :: m, x, v =>
    if x < a then (x, v) :: (a, b) :: m else if x = a then (x, v) :: m else (a, b) :: memWrite m x v

/-- The bytes of one write, the first at the lowest address (R170: one transfer of the whole range). -/
def memWriteBytes : List Host.Cell → Nat → List Byte → List Host.Cell
  | m, _, [] => m
  | m, x, v :: vs => memWriteBytes (memWrite m x v) (x + 1) vs

/-- A write that failed or was abandoned: each byte has landed or not, as the free value says (R173, R177). `n` is the
running number of the first byte. -/
def memLandBytes : List Host.Cell → Nat → List Byte → Nat → List Host.Cell
  | m, _, [], _ => m
  | m, x, v :: vs, n =>
    memLandBytes (if Config.failedWriteLands n then memWrite m x v else m) (x + 1) vs (n + 1)

/-- The canonical form: addresses strictly rising. No entry can equal what an unlisted address reads as, since that is
no value. -/
def memWf : List Host.Cell → Bool
  | [] => true
  | [_] => true
  | (a, _) :: (b, v) :: m => decide (a < b) && memWf ((b, v) :: m)

end Sys2Proof.Machine
end

