-- ==== Sys2Proof/Machine/Ops.lean ====
section
/-! DEFINITION. The named operations over the whole part: what a block asks of another as soon as its conditions hold
(fetches, data reads, chunk writes, entry writes, output, the ends of flushes and drains), producers and staging, the
part-state changes (LOADING, STOPPING, STOPPED, FAULTED, the resets), and the end of an access. -/

namespace Sys2Proof.Machine

/-- Every command is taken as one happening, and while RESET# is held low none is taken (R190). A command whose
happening cannot occur changes nothing, DESIGN CHOICE (notes/assumptions/5.md). -/
def State.take (s : State) (f : State → State) : Host.Outcome State Fault Refusal :=
  .next (if s.resetHeld then s else f s)

/-! ### What a line asks for as soon as its conditions hold -/

/-- A chunk write is due: none is in flight, and the chunk holds 16 bytes or its buffer has closed (R63). A closed buffer
is one whose RX_DONE is in the receive pending slot (R73). -/
def Line.chunkDue (l : Line) : Bool :=
  l.rx.inFlight.isNone && !l.rx.chunk.isEmpty && (decide (16 ≤ l.rx.chunk.length) || l.rx.slot.isSome)

/-- A due chunk write is issued: its at most 16 bytes leave the chunk (R63). -/
def Line.chunkIssued (l : Line) : Line :=
  if l.chunkDue then
    { l with rx := { l.rx with
        chunk := l.rx.chunk.drop 16
        chunkAddr := l.rx.chunkAddr + BitVec.ofNat 32 (l.rx.chunk.take 16).length
        inFlight := some (l.rx.chunk.take 16).length } }
  else l

/-- The write chunk is issued as one chunk write when it is due (R63). -/
def State.issueChunk (s : State) (i : LineNo) : State :=
  let l := s.line i
  if l.chunkDue then
    (s.setLine i l.chunkIssued).request
      { requester := .chunk i, addr := l.rx.chunkAddr, transfer := .write (l.rx.chunk.take 16) }
  else s

/-- The number of bytes of the next data read: min(16, length − bytes read) (R83). -/
def TxCurrent.nextRead (c : TxCurrent) : Nat := min 16 (c.record.len - c.bytesRead)

/-- A due data read is in flight (R83). -/
def Line.readRequested (l : Line) : Line :=
  match l.tx.cur with
  | some c => if l.readDue then { l with tx := { l.tx with readInFlight := some c.nextRead } } else l
  | none => l

/-- The next data read is requested when it is due (R83). -/
def State.requestRead (s : State) (i : LineNo) : State :=
  let l := s.line i
  match l.tx.cur with
  | some c =>
    if l.readDue then
      (s.setLine i l.readRequested).request
        { requester := .dataRead i, addr := c.record.addr + BitVec.ofNat 32 c.bytesRead, transfer := .read c.nextRead }
    else s
  | none => s

/-- The aborts of a close are carried out when the output is at mark: the wind-up begins (R96). -/
def Line.beginWindUp (l : Line) : Line :=
  if l.state = .closing ∧ l.close.phase = some .aborting ∧ l.tx.output = .mark ∧ l.tx.cur = none then
    { l with close := { l.close with phase := some .windUp } }
  else l

/-- The transmit side of a graceful drain is done, and stays done (R6, R165): TX_IDLE with the TXQ head at the boundary,
or TX_IDLE with the TXQ halted. -/
def Line.markTxDone (l : Line) (q : ReqQueue) : Line :=
  if l.draining ∧ l.tx.st = .idle ∧ l.tx.cur = none ∧ (l.close.boundary = some q.head ∨ q.halted) then
    { l with close := { l.close with txDone := true } }
  else l

/-- The drain ends when both sides are done and no flow character waits (R6, R107): the drain-limit timer and the
pause-limit timer stop and the wind-up begins. -/
def Line.endDrain (l : Line) : Line :=
  if l.draining ∧ l.rx.fifo = [] ∧ l.close.txDone ∧ l.flow.slot = none then
    { l with
      close := { l.close with phase := some .windUp, drainTimer := none }
      flow := { l.flow with timer := none } }
  else l

/-- A flush whose current record has ended begins its fetches (R92), ends at its boundary or at a halt (R94), and has its
CONTROL_DONE appended as soon as the event list has room (R13). -/
def Line.flushStep (l : Line) (i : LineNo) (time : Word) (q : ReqQueue) : Line :=
  let l1 := if l.tx.flushPhase = some .ending ∧ l.tx.cur = none then
      { l with tx := { l.tx with flushPhase := some .fetching } } else l
  let l2 := if l1.flushing ∧ l1.tx.flushPhase = some .fetching ∧ l1.tx.slot = none ∧ q.fetch = false ∧
        l1.tx.flushDue = none then
      if l1.tx.flushBoundary = some q.head then { l1 with tx := { l1.tx with flushDue := some .ok } }
      else if q.halted then { l1 with tx := { l1.tx with flushDue := some .queueState } }
      else l1
    else l1
  match l2.long, l2.tx.flushDue with
  | .flushTx tag, some st =>
    if l2.events.length < 4 then
      { l2 with
        events := l2.events ++ [longDone i time 6 tag st]
        long := .noRequest
        tx := { l2.tx with flushBoundary := none, flushPhase := none, flushDue := none } }
    else l2
  | _, _ => l2

/-- The Queue Unit takes a consumer's request for a fetch of the record at the head (R158). -/
def State.startFetch (s : State) (q : RqNo) : State :=
  let x := s.rq q
  (s.setRq q { x with fetch := true }).request
    { requester := .fetch q, addr := x.headAddr q, transfer := .read (entrySize q) }

/-- The queue is neither empty nor halted, and no fetch of it is in flight (R158). -/
def ReqQueue.fetchable (x : ReqQueue) : Bool := !x.isEmpty && !x.halted && !x.fetch

/-- The receive side asks for the next record of its RPQ (R55). -/
def Line.asksRpq (l : Line) (x : ReqQueue) : Bool :=
  (decide (l.state = .seek ∨ l.state = .trial ∨ l.state = .opened) || (l.draining && !l.rx.fifo.isEmpty)) &&
    decide (l.rx.bufs.length < 4) && x.fetchable

/-- The transmitter asks for the record at the head of its TXQ (R80). -/
def Line.asksTxq (l : Line) (x : ReqQueue) : Bool :=
  decide (l.tx.st = .idle) && l.tx.cur.isNone && l.tx.slot.isNone && (l.wantsOrdinary x.head || l.wantsFlush x.head) &&
    x.fetchable

/-- The fetch of a line's RPQ begins when the line asks for it. -/
def State.askRpq (s : State) (i : LineNo) : State :=
  if (s.line i).asksRpq (s.rq (rpq i)) then s.startFetch (rpq i) else s

/-- The fetch of a line's TXQ begins when the line asks for it. -/
def State.askTxq (s : State) (i : LineNo) : State :=
  if (s.line i).asksTxq (s.rq (txq i)) then s.startFetch (txq i) else s

/-- The Control Unit asks for the record at the head of CTLQ when it may (R111). -/
def State.askCtl (s : State) : State :=
  if s.control.st = .idle ∧ s.control.slot = none ∧ s.part = .running ∧ (s.rq 0).fetchable then
    ({ s with control := { s.control with st := .fetching } }).startFetch 0
  else s

/-- Both fetches of a line: the receive post queue first, then the transmit queue (R122). -/
def State.askFetches (s : State) (i : LineNo) : State := (s.askRpq i).askTxq i

/-- What a line does at once after a happening, on its own context: a due chunk write (R63), the next thing on its output
(R85), a due data read (R83), the beginning of the wind-up or the end of the drain (R6, R96), and the steps of a flush
(R92, R94). `q` is the line's TXQ. -/
def Line.settled (l : Line) (i : LineNo) (time : Word) (q : ReqQueue) : Line :=
  (((l.chunkIssued.chooseOutput.readRequested).beginWindUp.markTxDone q).endDrain).flushStep i time q

/-- Everything a line does at once after a happening: the steps of `Line.settled` with the requests they make of the
Memory Engine, and then the line's fetches (R55, R80). Their order is a DESIGN CHOICE (notes/assumptions/17.md). -/
def State.settleLine (s : State) (i : LineNo) : State :=
  let s1 := ((s.issueChunk i).updLine i Line.chooseOutput).requestRead i
  let s2 := s1.updLine i fun l =>
    ((l.beginWindUp.markTxDone (s1.rq (txq i))).endDrain).flushStep i s1.time (s1.rq (txq i))
  s2.askFetches i

/-- A happening of line `i`: `f` acts on the line, and the line does at once what follows from it. -/
def State.onLine (s : State) (i : LineNo) (f : Line → Line) : State := (s.updLine i f).settleLine i

/-- Every line in turn does at once what follows. -/
def State.settleAll (s : State) : State := (List.finRange 8).foldl State.settleLine s

/-! ### Request queues -/

/-- The head of a queue advances (R159), and the progress write of R161 is requested unless one already waits. -/
def State.advanceHead (s : State) (q : RqNo) : State :=
  let x := s.rq q
  let s1 := s.setRq q { x with head := nextSlot x.head x.size }
  if s1.progressWaits then s1
  else ({ s1 with progressWaits := true }).request
    { requester := .progress, addr := s1.progressAddr, transfer := .write (progressBytes s1.reqQueues) }

/-- The fetch in flight of a queue becomes none (R159, R163). -/
def State.endFetch (s : State) (q : RqNo) : State := s.setRq q { s.rq q with fetch := false }

/-! ### Completion queues -/

/-- Records are admitted and entries are written while the part is RUNNING or STOPPING (R135, R139). -/
def State.reporting (s : State) : Bool := decide (s.part = .running ∨ s.part = .stopping)

/-- The body write of the entry at the front of a queue's staging list begins when it may (R135, R136). -/
def State.beginEntry (s : State) (c : CqNo) : State :=
  let x := s.cq c
  match x.staging with
  | e :: _ =>
    if x.write = .noWrite ∧ x.isFull = false ∧ s.reporting then
      (s.setCq c { x with write := .body }).request
        { requester := .body c, addr := x.tailAddr + 4, transfer := .write e.record.bodyBytes }
    else s
  | [] => s

/-- The record a producer offers, once it is ready: the pending slots' records when every chunk write or data read of
the record has ended (R12), the front of an event list (R13), the control pending slot's record (R116). -/
def State.readyRecord (s : State) : Producer → Option Completion
  | .rxSlot i => if (s.line i).rx.chunk = [] ∧ (s.line i).rx.inFlight = none then (s.line i).rx.slot else none
  | .txSlot i => if (s.line i).tx.readInFlight = none then (s.line i).tx.slot else none
  | .events i => (s.line i).events.head?
  | .control => s.control.slot

/-- A producer's place gives up the record that was admitted (R139). -/
def State.giveUp (s : State) : Producer → State
  | .rxSlot i => s.updLine i fun l => { l with rx := { l.rx with slot := none } }
  | .txSlot i => s.updLine i fun l => { l with tx := { l.tx with slot := none } }
  | .events i => s.updLine i fun l => { l with events := l.events.tail }
  | .control => { s with control := { s.control with slot := none } }

/-- What a producer's block does at once after its record was admitted. -/
def State.settleProducer (s : State) : Producer → State
  | .rxSlot i => s.settleLine i
  | .txSlot i => s.settleLine i
  | .events i => s.settleLine i
  | .control => s.askCtl

/-- A record is admitted to queue `c`: it joins the back of the queue's staging list and its place gives it up (R139). -/
def State.admitRecord (s : State) (c : CqNo) (p : Producer) (r : Completion) : State :=
  let x := s.cq c
  (s.setCq c { x with staging := x.staging ++ [{ producer := p, record := r }] }).giveUp p

/-- The front waiting producer of a queue is admitted, and its block goes on (R140). -/
def State.admitWaiter (s : State) (c : CqNo) : State :=
  let x := s.cq c
  match x.waiting with
  | p :: rest =>
    match s.readyRecord p with
    | some r => ((s.setCq c { x with waiting := rest }).admitRecord c p r).settleProducer p
    | none => s.setCq c { x with waiting := rest }
  | [] => s

/-- A queue that is ARMED is asserted, or its moderation timer is started, by the unretired count (R144, R146). -/
def CplQueue.armedCount (x : CplQueue) : CplQueue :=
  if x.threshold ≤ x.unretired then { x with notif := .asserted, timer := none }
  else if x.timer.isSome then x
  else if x.delay = 0 then { x with notif := .asserted, timer := none }
  else { x with timer := some x.delay }

/-- The notification takes the writing of an entry (R146). -/
def CplQueue.noteWritten (x : CplQueue) : CplQueue :=
  if x.notif = .armed then x.armedCount else x

/-- The notification takes a RETIRE with ARM set (R144). -/
def CplQueue.arm (x : CplQueue) : CplQueue :=
  let y := { x with notif := .armed, timer := none }
  if y.unretired = 0 ∧ y.threshold ≠ 0 then y else y.armedCount

/-- An entry has been written: it leaves the front of the staging list, the tail advances, and the phase flips when the
tail wraps (R135). -/
def CplQueue.entryWritten (x : CplQueue) : CplQueue :=
  let t := nextSlot x.tail x.size
  { x with staging := x.staging.tail, tail := t, phase := if t = 0 then !x.phase else x.phase, write := .noWrite }

/-- The four checks of a RETIRE write (R142, R194). -/
def State.retirePasses (s : State) (queue : BitVec 4) (head : Half) : Bool :=
  s.reporting && decide (queue.toNat < 4) &&
    (let x := s.cq (Fin.ofNat 4 queue.toNat)
     let n := x.size.getD 0
     decide (head.toNat < n) && decide (ringDist head.toNat x.head n ≤ x.unretired))

/-- A RETIRE write: rejected, or the queue's head moves and `f` acts on its notification; a write that the queue's
fullness held back begins (R142). -/
def State.retireWith (s : State) (queue : BitVec 4) (head : Half) (f : CplQueue → CplQueue) : State :=
  if s.retirePasses queue head then
    let c : CqNo := Fin.ofNat 4 queue.toNat
    (s.setCq c (f { s.cq c with head := head.toNat })).beginEntry c
  else { s with retireRejected := true }

/-! ### Control requests -/

/-- The Control Unit answers the request it takes: a CONTROL_DONE for CMQ0 enters the control pending slot, and the
Control Unit is IDLE with no current request (R115, R116). -/
def State.answer (s : State) (r : List Byte) (st : Status) : State :=
  let c : Completion :=
    { dest := 0, time := s.time, body := .controlDone (reqCode r) (reqLineNo r) (reqTag r) st }
  { s with control := { st := .idle, req := none, slot := some c } }

/-- The first failing check of a list of checks in order. -/
def firstFailure (cs : List (Bool × Status)) : Option Status :=
  (cs.find? fun c => !c.1).map Prod.snd

/-! ### Part states -/

/-- A line after the part has left LOADING's failed start-up, a reset or a fault. -/
def freshLines : Vector Line 8 := Vector.replicate 8 Line.reset

/-- Windows unused and every ring with base 0 and no size, as a failed start-up leaves them (R181). -/
def State.clearSetup (s : State) : State :=
  { s with
    windows := unusedWindows
    reqQueues := Vector.replicate 17 ReqQueue.reset
    cplQueues := Vector.replicate 4 CplQueue.reset
    progressAddr := 0, progressWaits := false, progressActive := false }

/-- A start-up ends in STOPPED (R181, R182, R184): the lists are emptied and no result is delivered. -/
def State.failLoading (s : State) : State :=
  { s.clearSetup with part := .stopped, loadAbandoned := false, engine := s.engine.discardAll }

/-- A setup failure: STOPPED with its cause and address (R181, R182). -/
def State.setupFailure (s : State) (c : Cause) (addr : Word) : State :=
  { s.failLoading with cause := c, faultAddr := addr }

/-- The bytes of a write that failed or was abandoned have landed or not, as the free values say (R173, R177). -/
def State.landWrite (s : State) (r : Request) : State :=
  match r.transfer with
  | .write bs =>
    { s with mem := memLandBytes s.mem r.addr.toNat bs s.freeNext, freeNext := s.freeNext + bs.length }
  | .read _ => s

/-- The Engine takes its reset values (R170): the access in progress, if any, is abandoned at once, and may have written
part of its bytes (R177). -/
def State.abandonAccess (s : State) : State :=
  let s1 := match s.engine.access with
    | some a => s.landWrite a.request
    | none => s
  { s1 with engine := Engine.reset }

/-- The part enters LOADING (R180), all but the Setup Record read. The Engine takes the values of R170, so that an access
let end at an earlier fault and still in progress is abandoned. DEDUCED where R180 gives no value
(notes/assumptions/15.md; notes/assumptions/25.md). -/
def State.enterLoading (s : State) : State :=
  { s.abandonAccess.clearSetup with
    part := .loading, cause := .noCause, discarded := false, faultAddr := 0, notifyFault := false
    stopLimit := none, stopExpired := false, loadAbandoned := false
    rateTable := [], lines := freshLines
    control := ControlUnit.reset }

/-- An access begins for a request (R173). A progress write carries the heads as they stand now (R161). -/
def State.beginAccess (s : State) (r : Request) : State :=
  match r.requester with
  | .progress =>
    let p := { r with transfer := .write (progressBytes s.reqQueues) }
    { s with
      progressWaits := false, progressActive := true
      engine := { s.engine with access := some { request := p, began := s.time, deliver := true } } }
  | _ => { s with engine := { s.engine with access := some { request := r, began := s.time, deliver := true } } }

/-- The Setup Record read is requested and granted at once (R171, R181), unless a soft reset waits: the Engine then grants
nothing (R191). -/
def State.requestSetup (s : State) : State :=
  let r : Request := { requester := .setupRead, addr := s.setupAddr, transfer := .read 272 }
  if s.softPending then s.request r else s.beginAccess r

/-- RUN 1 in STOPPED: LOADING begins, and the Setup Record is read unless it would run past the address space (R180,
R181). -/
def State.startLoading (s : State) : State :=
  let s1 := s.enterLoading
  if maxAddress < s1.setupAddr.toNat + 271 then s1.setupFailure .setupInvalid s1.setupAddr else s1.requestSetup

/-- An access of LOADING itself is in progress (R184). -/
def State.loadingAccess (s : State) : Bool :=
  s.engine.access.any fun a =>
    decide (a.request.requester = .setupRead) || decide (a.request.requester = .zeroProgress)

/-- RUN 0 in LOADING: the start-up is abandoned, and the part enters STOPPED at once or when its access has ended
(R184). An access that has ended with its result untaken counts as none in progress and the result is dropped, DESIGN
CHOICE (notes/assumptions/34.md). -/
def State.abandonLoading (s : State) : State :=
  if s.loadingAccess then { s with loadAbandoned := true, engine := s.engine.discardAll } else s.failLoading

/-- A line takes the part's entry to STOPPING (R16): an immediate close, or the end of its drain as under R7. -/
def Line.stopLine (l : Line) (i : LineNo) (time : Word) : Line :=
  match l.state with
  | .closed => l
  | .closing => if l.draining then l.abort i time else l
  | _ => Line.abort { l with state := .closing, close := { l.close with mode := some .immediate } } i time

/-- The part enters STOPPING (R185): the stop limit starts at 100 ms and every line takes the entry. -/
def State.enterStopping (s : State) : State :=
  State.settleAll
    { s with part := .stopping, stopLimit := msTimer 100
             lines := Vector.ofFn fun i => (s.line i).stopLine i s.time }

/-- The part enters STOPPED from STOPPING (R186, R187): the stop limit and the moderation timers stop (R151). -/
def State.enterStopped (s : State) : State :=
  { s with
    part := .stopped, stopLimit := none, stopExpired := false
    cplQueues := s.cplQueues.map fun x => { x with timer := none } }

/-- A completion queue whose records are discarded, as at fault entry and at stop-limit expiry (R151). -/
def CplQueue.discard (x : CplQueue) : CplQueue := { x with staging := [], waiting := [], write := .noWrite }

/-- The Queue Unit forgets its fetches and its progress writes (R166). -/
def State.forgetFetches (s : State) : State :=
  { s with
    reqQueues := s.reqQueues.map fun x => { x with fetch := false }
    progressWaits := false, progressActive := false }

/-- The part enters FAULTED (R188). -/
def State.enterFaulted (s : State) (c : Cause) (addr : Word) : State :=
  { s.forgetFetches with
    part := .faulted, cause := c, faultAddr := addr, notifyFault := true
    stopLimit := none, stopExpired := false, loadAbandoned := false
    engine := s.engine.discardAll
    lines := freshLines, control := ControlUnit.reset
    cplQueues := s.cplQueues.map fun x => { x.discard with timer := none } }

/-- A line at stop-limit expiry (R187): of a CLOSED line the records waiting in its places are discarded; a line still
CLOSING, as every other line of a part in STOPPING is (R16), takes the values of R1 except its counters. -/
def Line.expireStop (l : Line) : Line :=
  if l.state = .closed then
    { l with events := [], rx := { l.rx with slot := none }, tx := { l.tx with slot := none } }
  else { Line.reset with counters := l.counters }

/-- The stop limit expires (R187), all but the entry to STOPPED. -/
def State.expireStopLimit (s : State) : State :=
  { s.forgetFetches with
    discarded := true, stopLimit := none
    engine := s.engine.discardAll
    lines := s.lines.map Line.expireStop, control := ControlUnit.reset
    cplQueues := s.cplQueues.map CplQueue.discard }

/-- Every block takes its values after pin reset (R190). What stands outside the part is kept: the levels of the receive
pins, host memory, the commands that wait, and the word last read. DESIGN CHOICE (notes/assumptions/12.md;
notes/assumptions/13.md). -/
def State.resetBlocks (s : State) : State :=
  { State.reset with
    rxd := s.rxd, mem := s.mem, freeNext := s.freeNext, readData := s.readData, pending := s.pending }

/-! ### The end of an access -/

/-- The bytes of a write that ended OK are in host memory (R173). -/
def State.commitWrite (s : State) (r : Request) : State :=
  match r.transfer with
  | .write bs => { s with mem := memWriteBytes s.mem r.addr.toNat bs }
  | .read _ => s

/-- The access in progress has ended, and what waited for its end follows: an abandoned LOADING and an expired stop
enter STOPPED (R184, R187). -/
def State.afterAccess (s : State) : State :=
  if s.loadAbandoned then s.failLoading else if s.stopExpired then s.enterStopped else s

/-- The access in progress ends, with data when it ended OK (none for BUS_ERROR): the Engine is free, and the result is
reported to its requester, unless the access was let end undelivered or a soft reset waits (R173, R177, R191). -/
def State.endAccess (s : State) (a : Access) (data : Option (List Byte)) : State :=
  let s1 := match data with
    | some _ => s.commitWrite a.request
    | none => s.landWrite a.request
  let rs := if a.deliver ∧ s.softPending = false
    then s1.engine.results ++ [{ requester := a.request.requester, addr := a.request.addr, data := data }]
    else s1.engine.results
  ({ s1 with engine := { s1.engine with access := none, results := rs } }).afterAccess

end Sys2Proof.Machine
end

