-- ==== Sys2Proof/Machine/Control.lean ====
section
/-! DEFINITION. The Control Unit and the meanings of the control requests (chapter 7). A control request is taken in the
same happening as the end of the control queue's fetch that delivers its record (R111, R159): each request's command
takes the waiting result of that fetch if its record is such a request, and FETCH_ENDS of queue 0 takes whichever it is,
DESIGN CHOICE (notes/assumptions/4.md). -/

namespace Sys2Proof.Machine

/-- The result of a fetch in flight of request queue `q`, waiting to be taken (R159). -/
def State.fetchResult? (s : State) (q : RqNo) : Option Result :=
  if (s.rq q).fetch then s.result? (.fetch q) else none

/-- The record of the control request that the Control Unit may take now: a CTLQ fetch has ended OK, the part is RUNNING
and the queue is not empty (R111, R159). -/
def State.ctlDelivery (s : State) : Option (List Byte) :=
  match s.fetchResult? 0 with
  | some x => if s.part = .running ∧ (s.rq 0).isEmpty = false then x.data else none
  | none => none

/-- The CTLQ fetch's result is taken and the Control Unit is IDLE (R111). -/
def State.endCtlFetch (s : State) : State :=
  let s1 := (s.dropResult (.fetch 0)).endFetch 0
  { s1 with control := { s1.control with st := .idle, req := none } }

/-- The record is accepted: the CTLQ head advances and the progress write is requested (R159, R161). -/
def State.acceptControl (s : State) : State := s.endCtlFetch.advanceHead 0

/-! ### The requests, each on an accepted record -/

/-- A NOP is answered OK and changes nothing (R119). -/
def requestNop (r : List Byte) (s : State) : State := s.answer r .ok

/-- An unassigned code is refused (R112, check 1). -/
def requestUnassigned (r : List Byte) (s : State) : State := s.answer r .badRequest

/-- The checks of a SET_RATE_TABLE in order (R36). -/
def rateTableChecks (r : List Byte) (s : State) : List (Bool × Status) :=
  let n := (recByte r 4).toNat
  let a := recWord r 8
  [ (decide (1 ≤ n ∧ n ≤ 12), .badParam),
    (decide (a.toNat % 8 = 0), .badParam),
    (!s.lines.any Line.discovering, .tableInUse),
    (rangeAllowed s.windows false a (8 * n), .addressFault) ]

/-- SET_RATE_TABLE (R36, R37): refused, or the Control Unit holds the request and requests the table read. -/
def requestSetRateTable (r : List Byte) (s : State) : State :=
  match firstFailure (rateTableChecks r s) with
  | some st => s.answer r st
  | none =>
    ({ s with control := { s.control with st := .holding, req := some r } }).request
      { requester := .tableRead, addr := recWord r 8, transfer := .read (8 * (recByte r 4).toNat) }

/-- Checks 2 to 4 of R112 for a request that names a line, other than QUERY_LINE and CLOSE_LINE, then `f` (R113,
R114). -/
def withLine (r : List Byte) (s : State) (allowed : LineState → Bool) (f : LineNo → State) : State :=
  match reqLineNo r with
  | none => s.answer r .badParam
  | some i =>
    if (s.line i).long ≠ .noRequest then s.answer r .lineBusy
    else if allowed (s.line i).state then f i
    else s.answer r .lineState

/-- The states SEEK, TRIAL and OPEN. -/
def inSession (x : LineState) : Bool := decide (x = .seek ∨ x = .trial ∨ x = .opened)

/-- The checks of an OPEN_LINE in order (R121). -/
def openChecks (r : List Byte) (t : List RateEntry) : List (Bool × Status) :=
  let fixed := decide ((recByte r 4).toNat = 0)
  let x := openSettings r
  [ (decide ((recByte r 4).toNat ≤ 1), .badParam),
    (!fixed || decide (5 ≤ (recByte r 5).toNat ∧ (recByte r 5).toNat ≤ 8), .badParam),
    (!fixed || (parityOfCode (recByte r 6)).isSome, .badParam),
    (!fixed || decide ((recByte r 7).toNat = 1 ∨ (recByte r 7).toNat = 2), .badParam),
    (!fixed || decide (32 ≤ (recHalf r 8).toNat), .badParam),
    (decide (4 ≤ x.seekWindow ∧ x.seekWindow ≤ 64), .badParam),
    (decide (x.stopAfter = 1 ∨ x.stopAfter = 2), .badParam),
    (!fixed || decide (x.trial1.toNat < 0x80 ∧ x.trial2.toNat < 0x80), .badParam),
    (decide ((recByte r 10).toNat ≤ 3), .badParam),
    (decide ((recByte r 11).toNat ≤ 1), .badParam),
    (decide (x.pauseValue ≠ x.resumeValue), .badParam),
    (decide (x.lowMark ≤ 30), .badParam),
    (decide (x.lowMark + 1 ≤ x.highMark ∧ x.highMark ≤ 31), .badParam),
    (decide (2 ≤ x.breakLength), .badParam),
    (fixed || !t.isEmpty, .noRateTable),
    (fixed || unambiguous x.trial1 x.trial2, .trialAmbiguous) ]

/-- A CLOSED line takes an OPEN_LINE (R4, R34, R39, R107, R122). -/
def Line.openWith (l : Line) (r : List Byte) : Line :=
  let l1 := { l with
    set := openSettings r
    rateIndex := none
    counters := Counters.reset
    disc := Discovery.reset
    flow := Flow.reset
    rx := { l.rx with
      delims := [], fifo := [], hold := [], gapArmed := false, lossPending := false, lossCarried := false,
      gapTimer := none } }
  if (recByte r 4).toNat = 0 then
    { l1 with
      state := .opened, frame := openFrame r, divisor := (recHalf r 8).toNat
      rx := { l1.rx with asm := .hunt } }
  else l1.enterSeek

/-- OPEN_LINE (R121, R122). -/
def requestOpenLine (r : List Byte) (s : State) : State :=
  withLine r s (· = .closed) fun i =>
    match firstFailure (openChecks r s.rateTable) with
    | some st => s.answer r st
    | none => (s.answer r .ok).onLine i fun l => l.openWith r

/-- The checks of a MODIFY_LINE in order (R123). -/
def modifyChecks (r : List Byte) (t : Settings) : List (Bool × Status) :=
  let x := modifySettings r t
  [ (!recBit r 4 2 || decide (x.lowMark ≤ 30), .badParam),
    (!(recBit r 4 1 || recBit r 4 2) || decide (x.lowMark + 1 ≤ x.highMark ∧ x.highMark ≤ 31), .badParam),
    (!recBit r 4 5 || decide (2 ≤ x.breakLength), .badParam) ]

/-- A line takes a MODIFY_LINE (R33, R103, R106, R124): a new gap of 0 stops the gap timer, a new pause limit of 0 stops
the pause-limit timer, and an active flow logic makes both tests with the new marks. -/
def Line.modify (l : Line) (r : List Byte) : Line :=
  let l1 := { l with
    set := modifySettings r l.set
    rx := { l.rx with
      gapTimer := if recBit r 4 0 ∧ (modifySettings r l.set).gap = 0 then none else l.rx.gapTimer }
    flow := { l.flow with
      timer := if recBit r 4 4 ∧ (modifySettings r l.set).pauseLimit = 0 then none else l.flow.timer } }
  if l1.set.highMark ≤ l1.rx.fifo.length then l1.flowRise else l1.flowFall

/-- MODIFY_LINE (R123, R124). -/
def requestModifyLine (r : List Byte) (s : State) : State :=
  withLine r s inSession fun i =>
    match firstFailure (modifyChecks r (s.line i).set) with
    | some st => s.answer r st
    | none => (s.answer r .ok).onLine i fun l => l.modify r

/-- The checks of a delimiter block in order (R66). -/
def delimChecks (r : List Byte) : List (Bool × Status) :=
  let n := (recByte r 4).toNat
  let ks := List.range n
  [ (decide (n ≤ 4), .badParam),
    (ks.all fun k => decide (1 ≤ slotLength r k ∧ slotLength r k ≤ 4), .badParam),
    (ks.all fun k => (slotAction r k).isSome, .badParam),
    (ks.all fun j => ks.all fun k => decide (j = k) || !(slotBytes r j).isPrefixOf (slotBytes r k),
      .delimiterConflict) ]

/-- A line takes a SET_DELIMITERS (R67). -/
def Line.setDelims (l : Line) (r : List Byte) : Line :=
  let l1 := l.releaseHold
  { l1 with rx := { l1.rx with delims := blockDelims r (recByte r 4).toNat } }

/-- SET_DELIMITERS (R66, R67). -/
def requestSetDelimiters (r : List Byte) (s : State) : State :=
  withLine r s inSession fun i =>
    match firstFailure (delimChecks r) with
    | some st => s.answer r st
    | none => (s.answer r .ok).onLine i fun l => l.setDelims r

/-- A flow character is on the line's transmit output (R108). -/
def Line.flowOnOutput (l : Line) : Bool :=
  match l.tx.output with
  | .flow _ _ => true
  | _ => false

/-- The checks of a REDISCOVER in order (R125). -/
def rediscoverChecks (l : Line) (t : List RateEntry) : List (Bool × Status) :=
  [ (decide (l.tx.st = .idle), .lineBusy),
    (!l.flowOnOutput, .lineBusy),
    (!t.isEmpty, .noRateTable),
    (unambiguous l.set.trial1 l.set.trial2, .trialAmbiguous) ]

/-- A line takes a REDISCOVER (R76, R108, R126): the buffer side, the falling test with its RESUME started at once, then
SEEK. -/
def Line.rediscover (l : Line) (i : LineNo) (time : Word) : Line :=
  let l1 := l.discardFifo
  let l2 := ({ l1 with rx := { l1.rx with hold := [] } }).closeBuffer i time .rateChange none
  let l3 := l2.flowFall.chooseOutput
  Line.enterSeek { l3 with flow := { l3.flow with peerPaused := false, timer := none } }

/-- REDISCOVER (R125, R126). -/
def requestRediscover (r : List Byte) (s : State) : State :=
  withLine r s (· = .opened) fun i =>
    match firstFailure (rediscoverChecks (s.line i) s.rateTable) with
    | some st => s.answer r st
    | none => (s.answer r .ok).onLine i fun l => l.rediscover i s.time

/-- A line takes a FLUSH_TX (R92): its boundary is the TXQ tail as it stands. -/
def Line.takeFlush (l : Line) (i : LineNo) (time : Word) (tag : Half) (tail : Nat) : Line :=
  Line.flushCurrent
    { l with
      long := .flushTx tag
      tx := { l.tx with flushBoundary := some tail, flushPhase := some .ending, flushDue := none } } i time

/-- FLUSH_TX (R92, R117, R128). -/
def requestFlushTx (r : List Byte) (s : State) : State :=
  withLine r s inSession fun i => s.onLine i fun l => l.takeFlush i s.time (reqTag r) (s.rq (txq i)).tail

/-- A line takes a FLUSH_RX (R75, R101, R127). One that finds the FIFO empty and no started buffer changes nothing but, as a
free value says, the three flags that a discard clears: R127 on the one side and R29, R62 and R75 on the other leave it
open (notes/assumptions/30.md). -/
def Line.flushRx (l : Line) (i : LineNo) (time : Word) : Line :=
  if l.rx.fifo = [] ∧ l.hasStarted = false then
    if Config.emptyFlushClears i time then l.discardFifo else l
  else
    let l1 := l.discardFifo
    Line.flowFall (if l1.hasStarted then l1.releaseHold.closeBuffer i time .flushed none else l1)

/-- FLUSH_RX (R127). -/
def requestFlushRx (r : List Byte) (s : State) : State :=
  withLine r s (· = .opened) fun i => (s.answer r .ok).onLine i fun l => l.flushRx i s.time

/-- The close mode a code names, if any (section 12.3). -/
def modeOfCode (b : Byte) : Option CloseMode :=
  match b.toNat with
  | 0 => some .graceful | 1 => some .immediate | _ => none

/-- A line in SEEK, TRIAL or OPEN takes a CLOSE_LINE (R5): a graceful close begins its drain, an immediate one carries
out the aborts. Abandoned discovery progress takes the values of R1, DEDUCED (notes/assumptions/18.md). -/
def Line.takeClose (l : Line) (i : LineNo) (time : Word) (m : CloseMode) (tag : Half) (limit tail : Nat) : Line :=
  let l1 := Line.stopInput { l with disc := Discovery.reset }
  let l2 := { l1 with
    state := .closing, long := .closeLine m tag
    close := { CloseSide.reset with mode := some m } }
  match m with
  | .immediate => l2.abort i time
  | .graceful =>
    { l2 with close := { l2.close with
        phase := some .drain, drainTimer := msTimer limit, boundary := some tail,
        txDone := decide (l.state ≠ .opened) } }

/-- A close overtaken by CLOSE_LINE IMMEDIATE (R10). -/
def Line.overtake (l : Line) (i : LineNo) (time : Word) (g tag : Half) : Line :=
  let l1 := { l with long := .twoCloses g tag, close := { l.close with mode := some .immediate } }
  if l.draining then l1.abort i time else l1

/-- CLOSE_LINE, in the order of its own checks (R129). -/
def requestCloseLine (r : List Byte) (s : State) : State :=
  match reqLineNo r with
  | none => s.answer r .badParam
  | some i =>
    match modeOfCode (recByte r 4) with
    | none => s.answer r .badParam
    | some m =>
      let l := s.line i
      let take := s.onLine i fun l =>
        l.takeClose i s.time m (reqTag r) (recHalf r 6).toNat (s.rq (txq i)).tail
      match l.long with
      | .closeLine .graceful g =>
        if m = .immediate then s.onLine i fun l => l.overtake i s.time g (reqTag r) else s.answer r .lineBusy
      | .closeLine .immediate _ => s.answer r .lineBusy
      | .twoCloses _ _ => s.answer r .lineBusy
      | .flushTx _ => if l.state = .closing then s.answer r .lineState else s.answer r .lineBusy
      | .noRequest => if l.state = .closing ∨ l.state = .closed then s.answer r .lineState else take

/-- The checks of a QUERY_LINE after its line number, in order (R131). -/
def queryChecks (r : List Byte) (ws : List Window) : List (Bool × Status) :=
  [ (decide ((recWord r 8).toNat % 8 = 0), .badParam),
    (rangeAllowed ws true (recWord r 8) 64, .addressFault) ]

/-- QUERY_LINE (R131, R132): the line is snapshotted, its counters are cleared with CLEAR set, and the Control Unit holds
the request while the report is written. -/
def requestQueryLine (r : List Byte) (s : State) : State :=
  match reqLineNo r with
  | none => s.answer r .badParam
  | some i =>
    match firstFailure (queryChecks r s.windows) with
    | some st => s.answer r st
    | none =>
      let s1 := if recBit r 4 0 then s.updLine i fun l => { l with counters := Counters.reset } else s
      ({ s1 with control := { s1.control with st := .holding, req := some r } }).request
        { requester := .reportWrite, addr := recWord r 8, transfer := .write (s.line i).report }

/-- Both directions' fetches of the consumer of a queue are asked for. -/
def State.askRestarted (s : State) (q : RqNo) : State :=
  match rqKind q with
  | .ctl => s
  | .tx i => s.askFetches i
  | .rp i => s.askFetches i

/-- RESTART_QUEUE (R165). -/
def requestRestartQueue (r : List Byte) (s : State) : State :=
  let n := (recByte r 4).toNat
  let q : RqNo := Fin.ofNat 17 n
  if 16 < n then s.answer r .badParam
  else if (s.rq q).halted then
    ((s.answer r .ok).setRq q { s.rq q with halted := false }).askRestarted q
  else s.answer r .queueState

/-- The Control Unit carries out or refuses an accepted request by its code (R112). -/
def carryOut (r : List Byte) (s : State) : State :=
  match (reqCode r).toNat with
  | 0 => requestNop r s
  | 1 => requestSetRateTable r s
  | 2 => requestOpenLine r s
  | 3 => requestModifyLine r s
  | 4 => requestSetDelimiters r s
  | 5 => requestRediscover r s
  | 6 => requestFlushTx r s
  | 7 => requestFlushRx r s
  | 8 => requestCloseLine r s
  | 9 => requestQueryLine r s
  | 10 => requestRestartQueue r s
  | _ => requestUnassigned r s

/-- The Control Unit takes the delivered request whole and asks for the next one (R111). -/
def State.takeRequest (s : State) (r : List Byte) (f : List Byte → State → State) : State :=
  (f r s.acceptControl).askCtl

/-- The Control Unit takes the delivered request if its code is one of those given. -/
def State.takeControl (s : State) (code : Nat → Bool) (f : List Byte → State → State) : State :=
  match s.ctlDelivery with
  | some r => if code (reqCode r).toNat then s.takeRequest r f else s
  | none => s

/-! ### The meanings -/

/-- NOP (R119). -/
def execNop (s : State) : Host.Outcome State Fault Refusal := s.take fun s => s.takeControl (· = 0) requestNop

/-- UNASSIGNED_REQUEST_CODE (R112): codes 11 to 255. -/
def execUnassignedRequestCode (s : State) : Host.Outcome State Fault Refusal :=
  s.take fun s => s.takeControl (11 ≤ ·) requestUnassigned

/-- SET_RATE_TABLE (R36). -/
def execSetRateTable (s : State) : Host.Outcome State Fault Refusal :=
  s.take fun s => s.takeControl (· = 1) requestSetRateTable

/-- OPEN_LINE (R121). -/
def execOpenLine (s : State) : Host.Outcome State Fault Refusal :=
  s.take fun s => s.takeControl (· = 2) requestOpenLine

/-- MODIFY_LINE (R123). -/
def execModifyLine (s : State) : Host.Outcome State Fault Refusal :=
  s.take fun s => s.takeControl (· = 3) requestModifyLine

/-- SET_DELIMITERS (R66). -/
def execSetDelimiters (s : State) : Host.Outcome State Fault Refusal :=
  s.take fun s => s.takeControl (· = 4) requestSetDelimiters

/-- REDISCOVER (R125). -/
def execRediscover (s : State) : Host.Outcome State Fault Refusal :=
  s.take fun s => s.takeControl (· = 5) requestRediscover

/-- FLUSH_TX (R128). -/
def execFlushTx (s : State) : Host.Outcome State Fault Refusal :=
  s.take fun s => s.takeControl (· = 6) requestFlushTx

/-- FLUSH_RX (R127). -/
def execFlushRx (s : State) : Host.Outcome State Fault Refusal :=
  s.take fun s => s.takeControl (· = 7) requestFlushRx

/-- CLOSE_LINE (R129). -/
def execCloseLine (s : State) : Host.Outcome State Fault Refusal :=
  s.take fun s => s.takeControl (· = 8) requestCloseLine

/-- QUERY_LINE (R131). -/
def execQueryLine (s : State) : Host.Outcome State Fault Refusal :=
  s.take fun s => s.takeControl (· = 9) requestQueryLine

/-- RESTART_QUEUE (R165). -/
def execRestartQueue (s : State) : Host.Outcome State Fault Refusal :=
  s.take fun s => s.takeControl (· = 10) requestRestartQueue

/-- The held request and the result of its own access, while the Control Unit holds a request with the given code
(R110). -/
def State.heldResult? (s : State) (code : Nat) (w : Requester) : Option (List Byte × Result) :=
  match s.control.st, s.control.req, s.result? w with
  | .holding, some r, some x => if (reqCode r).toNat = code then some (r, x) else none
  | _, _, _ => none

/-- An entry of a rate table fails the validation of R37. -/
def RateEntry.bad (e : RateEntry) : Bool := decide (e.divisor < 32) || decide (e.min < 16) || decide (e.max < e.min)

/-- The intervals of two entries share a tick value (R37). -/
def RateEntry.overlaps (a b : RateEntry) : Bool := decide (a.min ≤ b.max) && decide (b.min ≤ a.max)

/-- Some two entries at different places share a tick value (R37). -/
def anyOverlap : List RateEntry → Bool
  | [] => false
  | e :: es => es.any e.overlaps || anyOverlap es

/-- The validation of the entries read (R37). -/
def tableStatus (es : List RateEntry) : Status :=
  if es.any RateEntry.bad then .badParam else if anyOverlap es then .tableOverlap else .ok

/-- TABLE_READ_ENDS (R37): the entries are validated and replace the table, and the CONTROL_DONE is placed. -/
def execTableReadEnds (s : State) : Host.Outcome State Fault Refusal :=
  s.take fun s =>
    match s.heldResult? 1 .tableRead with
    | some (r, x) =>
      let s1 := s.dropResult .tableRead
      match x.data with
      | some bs =>
        let es := rateEntriesOf bs (recByte r 4).toNat
        (if tableStatus es = .ok then { s1 with rateTable := es } else s1).answer r (tableStatus es)
      | none => s1.answer r .busError
    | none => s

/-- REPORT_WRITE_ENDS (R132): the QUERY_LINE is answered OK or BUS_ERROR. -/
def execReportWriteEnds (s : State) : Host.Outcome State Fault Refusal :=
  s.take fun s =>
    match s.heldResult? 9 .reportWrite with
    | some (r, x) => (s.dropResult .reportWrite).answer r (if x.data.isSome then .ok else .busError)
    | none => s

end Sys2Proof.Machine
end

