-- ==== Sys2Proof/Machine/Writer.lean ====
section
/-! DEFINITION. The meanings of the receive writer's commands, of the end of a chunk write and of the wind-up of a close
(chapters 1 and 4). -/

namespace Sys2Proof.Machine

/-- The receive writer may take an entry (R58, R64), but for what a CHARACTER entry needs. -/
def Line.writerMayTake (l : Line) : Bool :=
  (decide (l.state = .opened) || l.draining) && l.rx.slot.isNone && !l.frontInvalid &&
    !(l.rx.inFlight.isSome && decide (9 < l.rx.chunk.length))

/-- The front entry leaves the FIFO. -/
def Line.popFifo (l : Line) : Line := { l with rx := { l.rx with fifo := l.rx.fifo.tail } }

/-- TAKE_CHARACTER_ENTRY (R58, R59). -/
def execTakeCharacterEntry (i : LineNo) (s : State) : Host.Outcome State Fault Refusal :=
  s.take fun s =>
    let l := s.line i
    match l.rx.fifo with
    | .char v pe fe loss :: _ =>
      if l.writerMayTake ∧ l.frontValid then
        s.onLine i fun l => l.popFifo.flowFall.takeChar i s.time v pe fe loss
      else s
    | _ => s

/-- The writer takes a GAP marker (R60). -/
def Line.takeGap (l : Line) (i : LineNo) (time : Word) (loss : Bool) : Line :=
  if l.hasStarted then
    let l1 := (l.releaseHold.noteLoss loss).closeBuffer i time .gap none
    { l1 with counters := { l1.counters with gapCloses := satInc l1.counters.gapCloses } }
  else l.carryLoss loss

/-- TAKE_GAP_MARKER (R60). -/
def execTakeGapMarker (i : LineNo) (s : State) : Host.Outcome State Fault Refusal :=
  s.take fun s =>
    let l := s.line i
    match l.rx.fifo with
    | .gap loss :: _ =>
      if l.writerMayTake then s.onLine i fun l => l.popFifo.flowFall.takeGap i s.time loss else s
    | _ => s

/-- The writer takes a BREAK marker (R61). -/
def Line.takeBreak (l : Line) (i : LineNo) (time : Word) (loss : Bool) : Line :=
  if l.hasStarted then (l.releaseHold.noteLoss loss).closeBuffer i time .brk none
  else (l.appendEvent (l.event time (.breakIdle i))).carryLoss loss

/-- TAKE_BREAK_MARKER (R61). -/
def execTakeBreakMarker (i : LineNo) (s : State) : Host.Outcome State Fault Refusal :=
  s.take fun s =>
    let l := s.line i
    match l.rx.fifo with
    | .brk loss :: _ =>
      if l.writerMayTake then s.onLine i fun l => l.popFifo.flowFall.takeBreak i s.time loss else s
    | _ => s

/-- The front record is answered by its condition, with reason CLOSED unless it is invalid (R9, R57). -/
def Line.answerBuffer (l : Line) (i : LineNo) (time : Word) : Line :=
  match l.rx.bufs with
  | b :: _ =>
    match b.cond with
    | .started _ _ _ => l.releaseHold.closeBuffer i time .closed none
    | .waiting => l.answerFront i time .closed
    | .invalid f => l.answerFront i time f.reason
  | [] => l

/-- An invalid front record may be answered (R57): in SEEK, TRIAL, OPEN, or CLOSING before the wind-up. -/
def Line.mayAnswerInvalid (l : Line) : Bool :=
  decide (l.state ≠ .closed) && !l.windingUp && l.rx.slot.isNone && l.frontInvalid

/-- ANSWER_INVALID_RECORD (R57). -/
def execAnswerInvalidRecord (i : LineNo) (s : State) : Host.Outcome State Fault Refusal :=
  s.take fun s =>
    if (s.line i).mayAnswerInvalid then s.onLine i fun l => l.answerBuffer i s.time else s

/-- WIND_UP_BUFFER_ANSWER (R9): the next record of the buffer list is answered through the empty slot. -/
def execWindUpBufferAnswer (i : LineNo) (s : State) : Host.Outcome State Fault Refusal :=
  s.take fun s =>
    let l := s.line i
    if l.windingUp ∧ l.rx.slot = none ∧ l.rx.bufs ≠ [] then s.onLine i fun l => l.answerBuffer i s.time else s

/-- A chunk write's result reaches the line (R63, R77, R78): its bytes are written, or the open buffer closes with
BUS_ERROR, or the waiting RX_DONE of the closed buffer is changed to BUS_ERROR. -/
def Line.takeChunk (l : Line) (i : LineNo) (time : Word) (n : Nat) (ok : Bool) : Line :=
  let l1 := { l with rx := { l.rx with inFlight := none } }
  if ok then { l1 with rx := { l1.rx with written := l.rx.written + n } }
  else
    match l.rx.slot with
    | some c =>
      let body := match c.body with
        | .rxDone k tag _ _ e f _ => CplBody.rxDone k tag l.rx.written .busError e f none
        | b => b
      { l1 with rx := { l1.rx with chunk := [], slot := some { c with body := body } } }
    | none =>
      match l.rx.bufs with
      | b :: rest =>
        match b.cond with
        | .started _ e f =>
          { l1 with rx := { l1.rx with
              bufs := rest, chunk := [], hold := []
              slot := some (l1.rxDone i time b l.rx.written .busError e f none) } }
        | _ => l1
      | [] => l1

/-- CHUNK_WRITE_ENDS (R63). -/
def execChunkWriteEnds (i : LineNo) (s : State) : Host.Outcome State Fault Refusal :=
  s.take fun s =>
    match (s.line i).rx.inFlight, s.result? (.chunk i) with
    | some n, some x => (s.dropResult (.chunk i)).onLine i fun l => l.takeChunk i s.time n x.data.isSome
    | _, _ => s

/-- A producer is one of a line's three places. -/
def producerOfLine (i : LineNo) : Producer → Bool
  | .rxSlot j => decide (j = i)
  | .txSlot j => decide (j = i)
  | .events j => decide (j = i)
  | .control => false

/-- No admitted record of a line waits in staging: every one has been reported written (R9, R135). -/
def State.allWritten (s : State) (i : LineNo) : Bool :=
  s.cplQueues.all fun x => x.staging.all fun e => !producerOfLine i e.producer

/-- The wait of the wind-up is over (R9). -/
def State.windUpDone (s : State) (i : LineNo) : Bool :=
  let l := s.line i
  l.windingUp && l.rx.bufs.isEmpty && l.rx.slot.isNone && l.tx.slot.isNone && l.events.isEmpty &&
    decide (l.tx.output = .mark) && s.allWritten i && !(s.rq (txq i)).fetch && !(s.rq (rpq i)).fetch

/-- The CONTROL_DONEs of the tags a line holds at the end of a wind-up, in the order taken (R9, R10, R11, R16, R130).
`stopped` says that the part entered STOPPING during the close. DEDUCED (notes/assumptions/22.md). -/
def longRecords (i : LineNo) (time : Word) (stopped : Bool) : PendingLong → List Completion
  | .noRequest => []
  | .flushTx t => [longDone i time 6 t .aborted]
  | .closeLine .graceful t => [longDone i time 8 t (if stopped then .aborted else .ok)]
  | .closeLine .immediate t => [longDone i time 8 t .ok]
  | .twoCloses g t => [longDone i time 8 g .aborted, longDone i time 8 t .ok]

/-- The final records of a close (R9, R11): the CONTROL_DONEs, and RATE_NOT_FOUND last. -/
def Line.finalRecords (l : Line) (i : LineNo) (time : Word) (stopped : Bool) : List Completion :=
  longRecords i time stopped l.long ++
    (match l.close.failure with
     | some (r, n) => [l.event time (.rateNotFound i r n)]
     | none => [])

/-- The end of a close (R9, R62, R109): the final records are appended and the line is CLOSED. loss_pending and gap
armed stay, DEDUCED (notes/assumptions/19.md). -/
def Line.finishClose (l : Line) (i : LineNo) (time : Word) (stopped : Bool) : Line :=
  { l with
    state := .closed
    events := l.events ++ l.finalRecords i time stopped
    long := .noRequest
    close := CloseSide.reset
    flow := Flow.reset
    rx := { l.rx with fifo := [], hold := [], bufs := [], lossCarried := false }
    tx := { l.tx with fifo := [], cur := none, st := .idle, ending := none } }

/-- WIND_UP_END (R9). -/
def execWindUpEnd (i : LineNo) (s : State) : Host.Outcome State Fault Refusal :=
  s.take fun s =>
    if s.windUpDone i then
      s.updLine i fun l => l.finishClose i s.time (decide (s.part = .stopping))
    else s

end Sys2Proof.Machine
end

