-- ==== Sys2Proof/Machine/Bus.lean ====
section
/-! DEFINITION. The meanings of the Memory Engine's commands, of the ends of fetches and of progress writes, and of the
two accesses of LOADING (chapters 9, 10 and 11). -/

namespace Sys2Proof.Machine

/-- The Engine may grant a request: no access in progress, no soft reset waiting, and a part state in which requests are
performed (R171, R177, R191). -/
def State.mayGrant (s : State) : Bool :=
  s.engine.access.isNone && !s.softPending &&
    decide (s.part = .loading ∨ s.part = .running ∨ s.part = .stopping)

/-- ACCESS_GRANT (R171, R172). -/
def execAccessGrant (s : State) : Host.Outcome State Fault Refusal :=
  s.take fun s =>
    if s.mayGrant then
      match s.engine.pick with
      | some (r, e) => ({ s with engine := e }).beginAccess r
      | none => s
    else s

/-- The data a normal response gives to an access: the bytes read, exactly as many as were asked for, or none for a
write. A response of another length is no normal response for the whole transfer. DESIGN CHOICE
(notes/assumptions/23.md). -/
def Transfer.reply (t : Transfer) (data : List Byte) : Option (List Byte) :=
  match t with
  | .read n => if data.length = n then some data else none
  | .write _ => some []

/-- BUS_RESPONSE (R173). A late response is matched to no access, and changes nothing. -/
def execBusResponse (reply : BusReply) (s : State) : Host.Outcome State Fault Refusal :=
  s.take fun s =>
    match s.engine.access with
    | some a =>
      match reply with
      | .late => s
      | .error => s.endAccess a none
      | .normal data =>
        match a.request.transfer.reply data with
        | some bs => s.endAccess a (some bs)
        | none => s
    | none => s

/-- ACCESS_TIMEOUT (R173). Not before an access is in progress, but at any time of it, DESIGN CHOICE
(notes/assumptions/7.md). -/
def execAccessTimeout (s : State) : Host.Outcome State Fault Refusal :=
  s.take fun s =>
    match s.engine.access with
    | some a => s.endAccess a none
    | none => s

/-- A fetch of a TXQ or RPQ ends with a bus error (R163, R164): the queue halts and its line appends QUEUE_HALTED. -/
def State.haltQueue (s : State) (q : RqNo) (i : LineNo) : State :=
  (s.setRq q { s.rq q with halted := true, fetch := false }).onLine i fun l =>
    l.appendEvent (l.event s.time (.queueHalted i q (s.rq q).head))

/-- The check of a receive post record at acceptance (R54). -/
def checkRxBuf (ws : List Window) (b : RxBuf) : RxBuf :=
  if b.len = 0 then { b with cond := .invalid .badRecord }
  else if rangeAllowed ws true b.addr b.len then b
  else { b with cond := .invalid .addressFault }

/-- The line accepts receive post records (R55). -/
def Line.acceptsRx (l : Line) : Bool := inSession l.state || l.draining

/-- A receive post record is delivered to its line (R54, R55, R159): accepted, or discarded with the head left. -/
def State.deliverRx (s : State) (i : LineNo) (r : List Byte) : State :=
  if (s.rq (rpq i)).isEmpty then s.settleLine i
  else if (s.line i).acceptsRx then
    (s.advanceHead (rpq i)).onLine i fun l =>
      { l with rx := { l.rx with bufs := l.rx.bufs ++ [checkRxBuf s.windows (rxBufOf r)] } }
  else s.settleLine i

/-- A transmit record accepted in the ordinary way is checked, and becomes current or is answered at once (R79). -/
def Line.acceptTx (l : Line) (i : LineNo) (time : Word) (ws : List Window) (t : TxRecord) : Line :=
  if t.len = 0 then l.answerTx i time t.tag .badRecord
  else if rangeAllowed ws false t.addr t.len then
    { l with tx := { l.tx with
        st := .sending, cur := some { record := t, bytesRead := 0, bytesSent := 0 }, fifo := [] } }
  else l.answerTx i time t.tag .addressFault

/-- A transmit record is delivered to its line (R80, R93, R159): answered FLUSHED, accepted, or discarded with the head
left. A record whose slot was withdrawn and posted anew after the FLUSH_TX (R157) is answered FLUSHED too, by R80's table,
DESIGN CHOICE (notes/assumptions/33.md). -/
def State.deliverTx (s : State) (i : LineNo) (r : List Byte) : State :=
  let q := s.rq (txq i)
  let t := txRecordOf r
  if q.isEmpty then s.settleLine i
  else if (s.line i).flushing then
    (s.advanceHead (txq i)).onLine i fun l => l.answerTx i s.time t.tag .flushed
  else if (s.line i).wantsOrdinary q.head then
    (s.advanceHead (txq i)).onLine i fun l => l.acceptTx i s.time s.windows t
  else s.settleLine i

/-- FETCH_ENDS (R111, R159, R163). -/
def execFetchEnds (q : RqNo) (s : State) : Host.Outcome State Fault Refusal :=
  s.take fun s =>
    match s.fetchResult? q with
    | none => s
    | some x =>
      match rqKind q with
      | .ctl =>
        match x.data with
        | none => s.enterFaulted .controlFetch x.addr
        | some _ =>
          match s.ctlDelivery with
          | some r => s.takeRequest r carryOut
          | none => s.endCtlFetch.askCtl
      | .tx i =>
        match x.data with
        | none => (s.dropResult (.fetch q)).haltQueue q i
        | some r => ((s.dropResult (.fetch q)).endFetch q).deliverTx i r
      | .rp i =>
        match x.data with
        | none => (s.dropResult (.fetch q)).haltQueue q i
        | some r => ((s.dropResult (.fetch q)).endFetch q).deliverRx i r

/-- A progress write has begun and its result has not been taken: it is the access in progress, or its result waits
(R161, R173). -/
def State.progressUnfinished (s : State) : Bool :=
  (s.engine.access.any fun a => a.deliver && decide (a.request.requester = .progress)) ||
    (s.result? .progress).isSome

/-- PROGRESS_WRITE_ENDS (R161, R162). A second progress write may have been granted, or may even have ended, before the
result of the first is taken (R173): the Queue Unit then goes on waiting for it. -/
def execProgressWriteEnds (s : State) : Host.Outcome State Fault Refusal :=
  s.take fun s =>
    match s.progressActive, s.result? .progress with
    | true, some x =>
      match x.data with
      | some _ =>
        let s1 := s.dropResult .progress
        { s1 with progressActive := s1.progressUnfinished }
      | none => s.enterFaulted .progressWrite x.addr
    | _, _ => s

/-! ### LOADING -/

/-- A power of two from 4 to 1024 (R182). -/
def isRingSize (n : Nat) : Bool := [4, 8, 16, 32, 64, 128, 256, 512, 1024].contains n

/-- The checks of window `n` of a Setup Record: the offset of the field checked, and whether it passes (R182). -/
def windowChecks (r : List Byte) (n : Nat) : List (Nat × Bool) :=
  let w := setupWindow r n
  if w.len = 0 then []
  else
    [ (12 * n + 4, decide (w.len.toNat % 16 = 0)),
      (12 * n, decide (w.base.toNat % 16 = 0)),
      (12 * n + 4, decide (w.base.toNat + w.len.toNat ≤ maxAddress + 1)) ]

/-- The checks of request ring `q` (R182), against the windows as read. -/
def rqChecks (r : List Byte) (q : Nat) : List (Nat × Bool) :=
  let e := entrySize (Fin.ofNat 17 q)
  let b := setupRqBase r q
  let n := setupRqSize r q
  [ (0x60 + 8 * q + 4, isRingSize n),
    (0x60 + 8 * q, decide (b.toNat % e = 0)),
    (0x60 + 8 * q, rangeAllowed (setupWindows r) false b (n * e)) ]

/-- The checks of completion ring `c` (R182). -/
def cqChecks (r : List Byte) (c : Nat) : List (Nat × Bool) :=
  let b := setupCqBase r c
  let n := setupCqSize r c
  [ (0xE8 + 8 * c + 4, isRingSize n),
    (0xE8 + 8 * c, decide (b.toNat % 16 = 0 ∧ b.toNat + n * 16 ≤ maxAddress + 1)),
    (0x108 + c, decide (1 ≤ setupCqThreshold r c)) ]

/-- The checks of a Setup Record in the order of R182. -/
def setupChecks (r : List Byte) : List (Nat × Bool) :=
  (List.range 8).flatMap (windowChecks r) ++ (List.range 17).flatMap (rqChecks r) ++
    (List.range 4).flatMap (cqChecks r) ++
    [(0x10C, decide ((setupProgress r).toNat % 4 = 0 ∧ (setupProgress r).toNat + 33 ≤ maxAddress))]

/-- The offset of the first field of a Setup Record that fails its check, if any (R182). -/
def setupFailureAt (r : List Byte) : Option Nat := ((setupChecks r).find? fun c => !c.2).map Prod.fst

/-- A valid Setup Record is installed (R183). -/
def State.install (s : State) (r : List Byte) : State :=
  { s with
    windows := setupWindows r
    reqQueues := Vector.ofFn fun q => { s.rq q with base := setupRqBase r q.val, size := some (setupRqSize r q.val) }
    cplQueues := Vector.ofFn fun c =>
      { s.cq c with
        base := setupCqBase r c.val, size := some (setupCqSize r c.val)
        threshold := setupCqThreshold r c.val, delay := setupCqDelay r c.val }
    progressAddr := setupProgress r }

/-- The all-zero progress write is requested, in class A (R183). -/
def State.requestZeroProgress (s : State) : State :=
  s.request { requester := .zeroProgress, addr := s.progressAddr, transfer := .write (List.replicate 34 0) }

/-- SETUP_RECORD_READ_ENDS (R181 to R183). -/
def execSetupRecordReadEnds (s : State) : Host.Outcome State Fault Refusal :=
  s.take fun s =>
    match s.part, s.result? .setupRead with
    | .loading, some x =>
      match x.data with
      | none => s.setupFailure .setupBusError s.setupAddr
      | some r =>
        match setupFailureAt r with
        | some off => s.setupFailure .setupInvalid (s.setupAddr + BitVec.ofNat 32 off)
        | none => ((s.dropResult .setupRead).install r).requestZeroProgress
    | _, _ => s

/-- ZERO_PROGRESS_WRITE_ENDS (R183): the part enters RUNNING or FAULTED. -/
def execZeroProgressWriteEnds (s : State) : Host.Outcome State Fault Refusal :=
  s.take fun s =>
    match s.part, s.result? .zeroProgress with
    | .loading, some x =>
      match x.data with
      | none => s.enterFaulted .progressWrite x.addr
      | some _ => { s.dropResult .zeroProgress with part := .running }
    | _, _ => s

end Sys2Proof.Machine
end

