-- ==== Sys2Proof/Machine/Receive.lean ====
section
/-! DEFINITION. The meanings of the happenings at a line's receive input and of the timers of reception and discovery
(chapters 2 and 3). -/

namespace Sys2Proof.Machine

/-- The level at which a run of sampled bits leaves the input. -/
def lastLevel (bits : List Bool) : Level := if bits.getLast? = some true then .mark else .space

/-- CHARACTER_COMPLETES (R21, R24, R45): the assembler samples the last stop bit of a frame that is not all space. The
form of the operand is a DESIGN CHOICE (notes/assumptions/26.md). -/
def execCharacterCompletes (i : LineNo) (bits : List Bool) (s : State) : Host.Outcome State Fault Refusal :=
  s.take fun s =>
    let l := s.line i
    if l.rx.asm = .frame then
      match l.state with
      | .opened =>
        match l.frame.receive bits with
        | some c => (s.setRxd i (lastLevel bits)).onLine i fun l =>
            Line.openChar { l with rx := { l.rx with asm := .hunt } } c
        | none => s
      | .trial =>
        match trialFrame.receive bits with
        | some c => (s.setRxd i (lastLevel bits)).onLine i fun l => l.trialChar i s.time s.rateTable c
        | none => s
      | _ => s
    else s

/-- BREAK_BEGINS (R22, R26, R45): the assembler samples a frame that is all space. -/
def execBreakBegins (i : LineNo) (s : State) : Host.Outcome State Fault Refusal :=
  s.take fun s =>
    let l := s.line i
    if l.rx.asm = .frame then
      match l.state with
      | .opened => (s.setRxd i .space).onLine i Line.openBreak
      | .trial => (s.setRxd i .space).onLine i fun l => l.failAttempt i s.time
      | _ => s
    else s

/-- BREAK_ENDS (R22, R30): the assembler returns to HUNT and the gap timer restarts. -/
def execBreakEnds (i : LineNo) (s : State) : Host.Outcome State Fault Refusal :=
  s.take fun s =>
    let l := s.line i
    if l.rx.asm = .brk ∧ l.state = .opened then
      (s.setRxd i .mark).updLine i fun l => Line.gapRestart { l with rx := { l.rx with asm := .hunt } }
    else s

/-- LOW_INTERVAL (R41, R42): a rising edge in SEEK; the interval is handled if its falling edge was seen in SEEK. -/
def execLowInterval (i : LineNo) (ticks : Nat) (s : State) : Host.Outcome State Fault Refusal :=
  s.take fun s =>
    let l := s.line i
    if l.state = .seek then
      if l.disc.measuring then (s.setRxd i .mark).onLine i fun l => l.takeInterval i s.time s.rateTable ticks
      else s.setRxd i .mark
    else s

/-- FALLING_EDGE (R20, R41): in HUNT a frame begins; in SEEK a low interval begins. The pin's level before is not looked
at (notes/assumptions/11.md). -/
def execFallingEdge (i : LineNo) (s : State) : Host.Outcome State Fault Refusal :=
  s.take fun s =>
    (s.setRxd i .space).updLine i fun l =>
      if l.state = .seek then { l with disc := { l.disc with measuring := true } }
      else if l.rx.asm = .hunt then { l with rx := { l.rx with asm := .frame } }
      else l

/-- FALSE_START (R20): the start bit is sampled at mark; the assembler returns to HUNT and nothing is counted. -/
def execFalseStart (i : LineNo) (s : State) : Host.Outcome State Fault Refusal :=
  s.take fun s =>
    if (s.line i).rx.asm = .frame then
      (s.setRxd i .mark).updLine i fun l => { l with rx := { l.rx with asm := .hunt } }
    else s

/-- The gap timer's expiry at the line (R31). -/
def Line.gapExpire (l : Line) : Line :=
  let l0 := { l with rx := { l.rx with gapTimer := none, gapArmed := false } }
  if l.rx.gapArmed ∧ l.rx.fifo.length < 32 then l0.join FifoEntry.gap else l0

/-- GAP_TIMER_EXPIRY (R31). -/
def execGapTimerExpiry (i : LineNo) (s : State) : Host.Outcome State Fault Refusal :=
  s.take fun s =>
    let l := s.line i
    if l.state = .opened ∧ l.rx.gapTimer.isSome then s.onLine i Line.gapExpire else s

/-- DISCOVERY_TIMEOUT_EXPIRY (R50): a discovery-failure close with reason TIMEOUT. -/
def execDiscoveryTimeoutExpiry (i : LineNo) (s : State) : Host.Outcome State Fault Refusal :=
  s.take fun s =>
    let l := s.line i
    if l.discovering ∧ l.disc.timer.isSome then s.onLine i fun l => l.failDiscovery i s.time .timeout else s

/-- TRIAL_WINDOW_EXPIRY (R46): the attempt fails. -/
def execTrialWindowExpiry (i : LineNo) (s : State) : Host.Outcome State Fault Refusal :=
  s.take fun s =>
    let l := s.line i
    if l.state = .trial ∧ l.disc.window.isSome then s.onLine i fun l => l.failAttempt i s.time else s

end Sys2Proof.Machine
end

