-- ==== Sys2Proof/Machine/Reports.lean ====
section
/-! DEFINITION. The meanings of the Completion Unit's commands and of the two ends of a stop (chapters 8 and 11). -/

namespace Sys2Proof.Machine

/-- OFFER (R139): the record is admitted to staging, or the producer joins the waiting-producer list. -/
def execOffer (p : Producer) (s : State) : Host.Outcome State Fault Refusal :=
  s.take fun s =>
    match s.readyRecord p with
    | some r =>
      let x := s.cq r.dest
      if s.reporting ∧ ¬ x.waiting.contains p then
        if x.staging.length < 8 ∧ x.waiting = [] then ((s.admitRecord r.dest p r).beginEntry r.dest).settleProducer p
        else s.setCq r.dest { x with waiting := x.waiting ++ [p] }
      else s
    | none => s

/-- The head-word write of the entry in progress is requested (R135). -/
def State.requestHeadWord (s : State) (c : CqNo) : State :=
  let x := s.cq c
  match x.staging with
  | e :: _ =>
    (s.setCq c { x with write := .headWord }).request
      { requester := .headWord c, addr := x.tailAddr, transfer := .write (e.record.headBytes x.phase) }
  | [] => s

/-- BODY_ACCESS_ENDS (R135, R137). -/
def execBodyAccessEnds (c : CqNo) (s : State) : Host.Outcome State Fault Refusal :=
  s.take fun s =>
    match (s.cq c).write, s.result? (.body c) with
    | .body, some x =>
      match x.data with
      | some _ => (s.dropResult (.body c)).requestHeadWord c
      | none => s.enterFaulted .completionWrite x.addr
    | _, _ => s

/-- An entry of a queue is written (R135, R140, R146): the queue and its notification take it, the front waiting producer
is admitted, and the next entry's body is requested. -/
def State.entryWritten (s : State) (c : CqNo) : State :=
  (((s.setCq c (s.cq c).entryWritten.noteWritten)).admitWaiter c).beginEntry c

/-- HEAD_WORD_ENDS (R135, R137). -/
def execHeadWordEnds (c : CqNo) (s : State) : Host.Outcome State Fault Refusal :=
  s.take fun s =>
    match (s.cq c).write, s.result? (.headWord c) with
    | .headWord, some x =>
      match x.data with
      | some _ => (s.dropResult (.headWord c)).entryWritten c
      | none => s.enterFaulted .completionWrite x.addr
    | _, _ => s

/-- The moderation timer's expiry at the queue (R147). -/
def CplQueue.moderate (x : CplQueue) : CplQueue :=
  { x with timer := none, notif := if x.notif = .armed ∧ 1 ≤ x.unretired then .asserted else x.notif }

/-- MODERATION_TIMER_EXPIRY (R147). -/
def execModerationTimerExpiry (c : CqNo) (s : State) : Host.Outcome State Fault Refusal :=
  s.take fun s => if (s.cq c).timer.isSome then s.setCq c (s.cq c).moderate else s

/-- STOP_LIMIT_EXPIRY (R187): what is not yet written is discarded, and the part enters STOPPED at once or when the access
in progress has ended. -/
def execStopLimitExpiry (s : State) : Host.Outcome State Fault Refusal :=
  s.take fun s =>
    if s.part = .stopping ∧ s.stopLimit.isSome then
      let s1 := s.expireStopLimit
      if s1.engine.access.isSome then { s1 with stopExpired := true } else s1.enterStopped
    else s

/-- A line is CLOSED with its three outgoing places empty (R186). -/
def Line.atRest (l : Line) : Bool :=
  decide (l.state = .closed) && l.rx.slot.isNone && l.tx.slot.isNone && l.events.isEmpty

/-- STOPPING may end (R186). That no result is untaken is DEDUCED (notes/assumptions/16.md). -/
def State.stopDone (s : State) : Bool :=
  decide (s.part = .stopping) && s.lines.all Line.atRest &&
    decide (s.control.st = .idle) && s.control.slot.isNone &&
    (s.cplQueues.all fun x => x.staging.isEmpty && x.waiting.isEmpty) &&
    s.engine.access.isNone && s.engine.noneWaiting && s.engine.results.isEmpty

/-- STOPPING_ENDS (R186). -/
def execStoppingEnds (s : State) : Host.Outcome State Fault Refusal :=
  s.take fun s => if s.stopDone then s.enterStopped else s

end Sys2Proof.Machine
end

