-- ==== Sys2Proof/Machine/Transmit.lean ====
section
/-! DEFINITION. The meanings of the happenings at a line's transmitter and of the timers that act on it (chapters 1, 5
and 6). -/

namespace Sys2Proof.Machine

/-- One more byte of the current record has been sent (R86). -/
def TxCurrent.oneSent (c : TxCurrent) : TxCurrent := { c with bytesSent := c.bytesSent + 1 }

/-- The last stop bit of a data character is sent (R84, R86, R92, R96): bytes sent and tx_chars rise, and the record may
end or enter TX_BREAK. -/
def Line.dataSent (l : Line) (i : LineNo) (time : Word) : Line :=
  let l1 := { l with
    tx := { l.tx with output := .mark, cur := l.tx.cur.map TxCurrent.oneSent }
    counters := { l.counters with txChars := satInc l.counters.txChars } }
  match l1.tx.ending, l1.tx.cur with
  | some st, _ => l1.endRecord i time st
  | none, some c =>
    if c.bytesSent = c.record.len then
      if c.record.breakAfter then l1.enterBreak else l1.endRecord i time .ok
    else l1
  | none, none => l1

/-- DATA_CHARACTER_SENT (R86). -/
def execDataCharacterSent (i : LineNo) (s : State) : Host.Outcome State Fault Refusal :=
  s.take fun s =>
    match (s.line i).tx.output with
    | .data _ => s.onLine i fun l => l.dataSent i s.time
    | _ => s

/-- A flow character has been sent whole (R88); a record that an abort left waiting for it ends (R96). -/
def Line.flowSent (l : Line) (i : LineNo) (time : Word) : Line :=
  let l1 := { l with tx := { l.tx with output := .mark } }
  match l.tx.ending with
  | some st => l1.endRecord i time st
  | none => l1

/-- FLOW_CHARACTER_ENDS (R88). -/
def execFlowCharacterEnds (i : LineNo) (s : State) : Host.Outcome State Fault Refusal :=
  s.take fun s =>
    match (s.line i).tx.output with
    | .flow _ _ => s.onLine i fun l => l.flowSent i s.time
    | _ => s

/-- BREAK_TIMER_EXPIRY (R89): the output returns to mark and the record ends OK. -/
def execBreakTimerExpiry (i : LineNo) (s : State) : Host.Outcome State Fault Refusal :=
  s.take fun s =>
    let l := s.line i
    if l.tx.st = .brk ∧ l.tx.breakTimer.isSome then s.onLine i fun l => l.stopBreak.endRecord i s.time .ok else s

/-- The pause-limit timer's expiry at the line (R105). -/
def Line.pauseExpire (l : Line) (i : LineNo) (time : Word) : Line :=
  ({ l with flow := { l.flow with peerPaused := false, timer := none } }).appendEvent (l.event time (.pauseExpired i))

/-- PAUSE_LIMIT_EXPIRY (R105). -/
def execPauseLimitExpiry (i : LineNo) (s : State) : Host.Outcome State Fault Refusal :=
  s.take fun s =>
    if (s.line i).flow.timer.isSome then s.onLine i fun l => l.pauseExpire i s.time else s

/-- DRAIN_LIMIT_EXPIRY (R7): the drain is cut short; the close mode stays GRACEFUL. -/
def execDrainLimitExpiry (i : LineNo) (s : State) : Host.Outcome State Fault Refusal :=
  s.take fun s =>
    let l := s.line i
    if l.draining ∧ l.close.drainTimer.isSome then s.onLine i fun l => l.abort i s.time else s

/-- A transmit data read's result reaches the line (R83, R84): its bytes join the FIFO of a record still current, are
discarded, or a bus error ends the record. -/
def Line.takeRead (l : Line) (i : LineNo) (time : Word) (data : Option (List Byte)) : Line :=
  let l1 := { l with tx := { l.tx with readInFlight := none } }
  match l.tx.cur, l.tx.ending, data with
  | some c, none, some bs =>
    { l1 with tx := { l1.tx with
        fifo := l1.tx.fifo ++ bs, cur := some { c with bytesRead := c.bytesRead + bs.length } } }
  | some _, none, none =>
    match l.tx.output with
    | .data _ => l1.endAfterOutput i time .busError
    | _ => l1.endRecord i time .busError
  | _, _, _ => l1

/-- DATA_READ_ENDS (R83). -/
def execDataReadEnds (i : LineNo) (s : State) : Host.Outcome State Fault Refusal :=
  s.take fun s =>
    match (s.line i).tx.readInFlight, s.result? (.dataRead i) with
    | some _, some x => (s.dropResult (.dataRead i)).onLine i fun l => l.takeRead i s.time x.data
    | _, _ => s

end Sys2Proof.Machine
end

