-- ==== Sys2Proof/Machine/Window.lean ====
section
/-! DEFINITION. The meanings of the commands of the pins, of the register window and of the Time Base (chapters 9 and
11). -/

namespace Sys2Proof.Machine

/-- PIN_RESET (R190): the part is held in reset, the access in progress is abandoned, and every block takes its reset
values. -/
def execPinReset (s : State) : Host.Outcome State Fault Refusal :=
  s.take fun s => { s.abandonAccess.resetBlocks with resetHeld := true }

/-- PIN_RESET_RELEASE (R190): RESET# returns high, and every block holds its values after pin reset. -/
def execPinResetRelease (s : State) : Host.Outcome State Fault Refusal :=
  .next (if s.resetHeld then s.resetBlocks else s)

/-- RUN_WRITTEN_1 (R178, R180, R181). -/
def execRunWritten1 (s : State) : Host.Outcome State Fault Refusal :=
  s.take fun s =>
    let s1 := { s with run := true }
    match s.part with
    | .stopped => s1.startLoading
    | _ => s1

/-- RUN_WRITTEN_0 (R178, R184, R185). -/
def execRunWritten0 (s : State) : Host.Outcome State Fault Refusal :=
  s.take fun s =>
    let s1 := { s with run := false }
    match s.part with
    | .running => s1.enterStopping
    | .loading => s1.abandonLoading
    | .faulted => { s1 with part := .stopped }
    | _ => s1

/-- The soft reset takes effect: the values after pin reset, but for the cause and FAULT_ADDR (R191). -/
def State.softReset (s : State) : State := { s.resetBlocks with cause := s.cause, faultAddr := s.faultAddr }

/-- SOFT_RESET (R178, R191): the Engine grants no further request; with no access in progress the reset takes effect at
once. The RUN bit the write carries is not stored. DEDUCED (notes/assumptions/14.md). -/
def execSoftReset (_run : Bool) (s : State) : Host.Outcome State Fault Refusal :=
  s.take fun s =>
    if s.softPending then s
    else if s.engine.access = none then s.softReset
    else { s with softPending := true }

/-- SOFT_RESET_TAKES_EFFECT (R191): once the access in progress has ended. -/
def execSoftResetTakesEffect (s : State) : Host.Outcome State Fault Refusal :=
  s.take fun s => if s.softPending ∧ s.engine.access = none then s.softReset else s

/-- STATUS_READ (R179): the five fields as they stand, then the two REJECTED flags clear. While RESET# is held low a
read returns 0 and clears nothing (R190). -/
def execStatusRead (s : State) : Host.Outcome State Fault Refusal :=
  .next (if s.resetHeld then { s with readData := 0 }
    else { s with readData := s.statusWord, postRejected := false, retireRejected := false })

/-- SETUP_ADDR_WRITE (R153): stored while STOPPED, ignored in every other state. -/
def execSetupAddrWrite (value : Word) (s : State) : Host.Outcome State Fault Refusal :=
  s.take fun s => if s.part = .stopped then { s with setupAddr := value } else s

/-- A POST write is not rejected (R156, R194). -/
def State.postPasses (s : State) (queue : BitVec 5) (tail : Half) : Bool :=
  decide (s.part = .running) && decide (queue.toNat ≤ 16) &&
    decide (tail.toNat < (s.rq (Fin.ofNat 17 queue.toNat)).size.getD 0)

/-- The consumer of a queue asks for a fetch as soon as its conditions hold (R156). -/
def State.askConsumer (s : State) (q : RqNo) : State :=
  match rqKind q with
  | .ctl => s.askCtl
  | .tx i => s.askTxq i
  | .rp i => s.askRpq i

/-- POST (R156, R157): the queue's tail is set, or the write is rejected and sets POST_REJECTED. -/
def execPost (queue : BitVec 5) (tail : Half) (s : State) : Host.Outcome State Fault Refusal :=
  s.take fun s =>
    if s.postPasses queue tail then
      let q : RqNo := Fin.ofNat 17 queue.toNat
      (s.setRq q { s.rq q with tail := tail.toNat }).askConsumer q
    else { s with postRejected := true }

/-- RETIRE, with ARM clear (R142, R145). -/
def execRetire (queue : BitVec 4) (head : Half) (s : State) : Host.Outcome State Fault Refusal :=
  s.take fun s => s.retireWith queue head id

/-- RETIRE_ARM, with ARM set (R142, R144). -/
def execRetireArm (queue : BitVec 4) (head : Half) (s : State) : Host.Outcome State Fault Refusal :=
  s.take fun s => s.retireWith queue head CplQueue.arm

/-- REGISTER_WRITE_IGNORED (R152): it changes nothing and sets no flag. -/
def execRegisterWriteIgnored (_offset : Nat) (_narrow : Bool) (_value : Word) (s : State) :
    Host.Outcome State Fault Refusal :=
  s.take fun s => s

/-- One microsecond passes for a line's timers stated in ms (R154). -/
def Line.tick (l : Line) : Line :=
  { l with
    disc := { l.disc with timer := tickTimer l.disc.timer }
    flow := { l.flow with timer := tickTimer l.flow.timer }
    close := { l.close with drainTimer := tickTimer l.close.drainTimer } }

/-- MICROSECOND_COUNT_RISES (R154): the count rises by 1 and wraps; every running timer stated in ms or µs advances. -/
def execMicrosecondCountRises (s : State) : Host.Outcome State Fault Refusal :=
  s.take fun s =>
    { s with
      time := s.time + 1
      stopLimit := tickTimer s.stopLimit
      lines := s.lines.map Line.tick
      cplQueues := s.cplQueues.map fun x => { x with timer := tickTimer x.timer } }

end Sys2Proof.Machine
end

