-- ==== Sys2Proof/Machine/Dispatch.lean ====
section
/-! DEFINITION. The dispatch: one arm per command, each one direct call of the command's meaning. -/

namespace Sys2Proof.Machine

/-- What a command does to the part, everything but the queue of waiting commands. -/
def exec (i : Instr) (s : State) : Host.Outcome State Fault Refusal :=
  match i with
  | .pinReset => Sys2Proof.Machine.execPinReset s
  | .pinResetRelease => Sys2Proof.Machine.execPinResetRelease s
  | .runWritten1 => Sys2Proof.Machine.execRunWritten1 s
  | .runWritten0 => Sys2Proof.Machine.execRunWritten0 s
  | .softReset run => Sys2Proof.Machine.execSoftReset run s
  | .softResetTakesEffect => Sys2Proof.Machine.execSoftResetTakesEffect s
  | .statusRead => Sys2Proof.Machine.execStatusRead s
  | .setupAddrWrite value => Sys2Proof.Machine.execSetupAddrWrite value s
  | .post queue tail => Sys2Proof.Machine.execPost queue tail s
  | .retire queue head => Sys2Proof.Machine.execRetire queue head s
  | .retireArm queue head => Sys2Proof.Machine.execRetireArm queue head s
  | .registerWriteIgnored offset narrow value => Sys2Proof.Machine.execRegisterWriteIgnored offset narrow value s
  | .nop => Sys2Proof.Machine.execNop s
  | .unassignedRequestCode => Sys2Proof.Machine.execUnassignedRequestCode s
  | .setRateTable => Sys2Proof.Machine.execSetRateTable s
  | .openLine => Sys2Proof.Machine.execOpenLine s
  | .modifyLine => Sys2Proof.Machine.execModifyLine s
  | .setDelimiters => Sys2Proof.Machine.execSetDelimiters s
  | .rediscover => Sys2Proof.Machine.execRediscover s
  | .flushTx => Sys2Proof.Machine.execFlushTx s
  | .flushRx => Sys2Proof.Machine.execFlushRx s
  | .closeLine => Sys2Proof.Machine.execCloseLine s
  | .queryLine => Sys2Proof.Machine.execQueryLine s
  | .restartQueue => Sys2Proof.Machine.execRestartQueue s
  | .characterCompletes line bits => Sys2Proof.Machine.execCharacterCompletes line bits s
  | .breakBegins line => Sys2Proof.Machine.execBreakBegins line s
  | .breakEnds line => Sys2Proof.Machine.execBreakEnds line s
  | .lowInterval line ticks => Sys2Proof.Machine.execLowInterval line ticks s
  | .gapTimerExpiry line => Sys2Proof.Machine.execGapTimerExpiry line s
  | .discoveryTimeoutExpiry line => Sys2Proof.Machine.execDiscoveryTimeoutExpiry line s
  | .trialWindowExpiry line => Sys2Proof.Machine.execTrialWindowExpiry line s
  | .drainLimitExpiry line => Sys2Proof.Machine.execDrainLimitExpiry line s
  | .pauseLimitExpiry line => Sys2Proof.Machine.execPauseLimitExpiry line s
  | .breakTimerExpiry line => Sys2Proof.Machine.execBreakTimerExpiry line s
  | .dataCharacterSent line => Sys2Proof.Machine.execDataCharacterSent line s
  | .flowCharacterEnds line => Sys2Proof.Machine.execFlowCharacterEnds line s
  | .accessGrant => Sys2Proof.Machine.execAccessGrant s
  | .busResponse reply => Sys2Proof.Machine.execBusResponse reply s
  | .accessTimeout => Sys2Proof.Machine.execAccessTimeout s
  | .chunkWriteEnds line => Sys2Proof.Machine.execChunkWriteEnds line s
  | .dataReadEnds line => Sys2Proof.Machine.execDataReadEnds line s
  | .fetchEnds queue => Sys2Proof.Machine.execFetchEnds queue s
  | .tableReadEnds => Sys2Proof.Machine.execTableReadEnds s
  | .reportWriteEnds => Sys2Proof.Machine.execReportWriteEnds s
  | .bodyAccessEnds queue => Sys2Proof.Machine.execBodyAccessEnds queue s
  | .headWordEnds queue => Sys2Proof.Machine.execHeadWordEnds queue s
  | .progressWriteEnds => Sys2Proof.Machine.execProgressWriteEnds s
  | .setupRecordReadEnds => Sys2Proof.Machine.execSetupRecordReadEnds s
  | .zeroProgressWriteEnds => Sys2Proof.Machine.execZeroProgressWriteEnds s
  | .takeCharacterEntry line => Sys2Proof.Machine.execTakeCharacterEntry line s
  | .takeGapMarker line => Sys2Proof.Machine.execTakeGapMarker line s
  | .takeBreakMarker line => Sys2Proof.Machine.execTakeBreakMarker line s
  | .answerInvalidRecord line => Sys2Proof.Machine.execAnswerInvalidRecord line s
  | .offer producer => Sys2Proof.Machine.execOffer producer s
  | .windUpBufferAnswer line => Sys2Proof.Machine.execWindUpBufferAnswer line s
  | .windUpEnd line => Sys2Proof.Machine.execWindUpEnd line s
  | .moderationTimerExpiry queue => Sys2Proof.Machine.execModerationTimerExpiry queue s
  | .stopLimitExpiry => Sys2Proof.Machine.execStopLimitExpiry s
  | .stoppingEnds => Sys2Proof.Machine.execStoppingEnds s
  | .fallingEdge line => Sys2Proof.Machine.execFallingEdge line s
  | .falseStart line => Sys2Proof.Machine.execFalseStart line s
  | .microsecondCountRises => Sys2Proof.Machine.execMicrosecondCountRises s

end Sys2Proof.Machine
end

