-- ==== Sys2Proof/Safety.lean ====
section
/-! DEFINITION. What counts as a safe state and as a command that keeps to its own: the invariants that the manual states
of the part (each names its rules), and the frames, which say what a command leaves alone. -/

namespace Sys2Proof.Machine

/-! ### Invariants -/

/-- Whatever command is taken in a state with `P`, the state it answers has `P`. -/
def KeptByEveryStep (P : State → Prop) : Prop := ∀ s t : State, P s → step s = .next t → P t

/-- The memory list keeps its canonical form. -/
def MemoryOrdered (s : State) : Prop := memWf s.mem = true

/-- The capacities of the collections: 32 FIFO entries (R27), 4 receive post records (R2), 4 event list entries (R13), 4
delimiters (R1, R65), 2 trial characters (R1), 8 staged records (R136), 25 waiting producers, none twice (R134, R139), and
the 8 windows (R167). A fetch in flight of an RPQ has a place in the buffer list kept free for its record (R55). -/
def WithinCapacity (s : State) : Prop :=
  (∀ i : LineNo, (s.line i).rx.fifo.length ≤ 32 ∧ (s.line i).rx.bufs.length ≤ 4 ∧ (s.line i).events.length ≤ 4 ∧
    (s.line i).rx.delims.length ≤ 4 ∧ (s.line i).disc.held.length ≤ 2 ∧
    ((s.rq (rpq i)).fetch = true → (s.line i).rx.bufs.length ≤ 3)) ∧
  (∀ c : CqNo, (s.cq c).staging.length ≤ 8 ∧ (s.cq c).waiting.length ≤ 25 ∧ (s.cq c).waiting.Nodup) ∧
  s.windows.length = 8

/-- A CLOSED line holds no buffer record, no FIFO entry, no held byte, no current transmit record and no pending long
request (R2). -/
def ClosedLinesEmpty (s : State) : Prop :=
  ∀ i : LineNo, (s.line i).state = .closed →
    (s.line i).rx.bufs = [] ∧ (s.line i).rx.fifo = [] ∧ (s.line i).rx.hold = [] ∧ (s.line i).tx.cur = none ∧
      (s.line i).long = .noRequest

/-- own_paused and the flow pending slot stand in one of the four combinations of R99: a PAUSE in the slot only with
own_paused set, a RESUME only with it clear. With flow mode NONE the whole flow state is clear (R98). -/
def FlowCombinations (s : State) : Prop :=
  ∀ i : LineNo,
    ((s.line i).flow.slot = some .pause → (s.line i).flow.ownPaused = true) ∧
    ((s.line i).flow.slot = some .resume → (s.line i).flow.ownPaused = false) ∧
    ((s.line i).set.flowMode = .noFlow → (s.line i).flow = Flow.reset)

/-- The transmitter's fields agree: TX_IDLE exactly without a current record, an empty transmit pending slot whenever a
record is current or fetched (R80, R82), a break on the output exactly in TX_BREAK, with no data read in flight (R89), a
data character only in TX_SENDING (section 5.2), and only a current record that is still to end, with ABORTED or with
BUS_ERROR (R84, R92, R96). -/
def TransmitterAgrees (s : State) : Prop :=
  ∀ i : LineNo,
    ((s.line i).tx.st = .idle ↔ (s.line i).tx.cur = none) ∧
    ((s.line i).tx.cur ≠ none → (s.line i).tx.slot = none) ∧
    ((s.rq (txq i)).fetch = true → (s.line i).tx.cur = none ∧ (s.line i).tx.slot = none) ∧
    ((s.line i).tx.output = .brk ↔ (s.line i).tx.st = .brk) ∧
    ((s.line i).tx.st = .brk → (s.line i).tx.readInFlight = none) ∧
    (∀ bits, (s.line i).tx.output = .data bits → (s.line i).tx.st = .sending) ∧
    ((s.line i).tx.ending ≠ none →
      (s.line i).tx.cur ≠ none ∧ ((s.line i).tx.ending = some .aborted ∨ (s.line i).tx.ending = some .busError))

/-- The bytes of a line's transmit record are accounted for (R83, R86): those sent, those in the FIFO and the one on the
output are read; those read and those of the data read in flight lie within the record. -/
def Line.bytesAccounted (l : Line) : Prop :=
  ∀ c, l.tx.cur = some c → l.tx.ending = none →
    c.bytesSent + l.tx.fifo.length + (match l.tx.output with
      | .data _ => 1
      | _ => 0) ≤ c.bytesRead ∧
    c.bytesRead + l.tx.readInFlight.getD 0 ≤ c.record.len

/-- A data read in flight belongs to the current record, or to an ended one whose TX_DONE waits in the slot (R82, R83), and
a record is current only in OPEN, in a drain whose transmit side is not done, and before an abort is carried out (R6, R80,
R96); so a CLOSED line has none in flight. -/
def Line.readsOwned (l : Line) : Prop :=
  l.tx.readInFlight ≠ some 0 ∧
    (l.tx.readInFlight ≠ none → l.tx.cur ≠ none ∨ l.tx.slot ≠ none) ∧
    (l.tx.cur ≠ none → l.state = .opened ∨ (l.draining = true ∧ l.close.txDone = false) ∨
      (l.state = .closing ∧ l.close.phase = some .aborting)) ∧
    (l.state = .closed → l.tx.readInFlight = none)

/-- The requests that stand with the Memory Engine: those that wait, and that of the access in progress unless it is let
end. -/
def Engine.requests (e : Engine) : List Request :=
  e.listA ++ e.listB ++ e.listC ++ e.listD ++ (e.access.filter Access.deliver).toList.map Access.request

/-- The Memory Engine knows at most the one data read that a line has in flight, as a request or as a result, and of its
byte count (R83, R170, R173). -/
def State.readsTied (s : State) (i : LineNo) : Prop :=
  (s.engine.requests.countP fun r => r.requester = .dataRead i) +
      (s.engine.results.countP fun x => x.requester = .dataRead i) ≤ (if (s.line i).tx.readInFlight = none then 0 else 1) ∧
    (∀ r ∈ s.engine.requests, r.requester = .dataRead i →
      ∃ n, r.transfer = .read n ∧ (s.line i).tx.readInFlight = some n) ∧
    ∀ x ∈ s.engine.results, x.requester = .dataRead i → ∀ bs, x.data = some bs →
      (s.line i).tx.readInFlight = some bs.length

/-- Every line's data reads are accounted for: the bytes read, in flight and sent (R83, R86). -/
def ReadsAccounted (s : State) : Prop :=
  ∀ i : LineNo, (s.line i).bytesAccounted ∧ (s.line i).readsOwned ∧ s.readsTied i

/-- A request reads at most 16 bytes if it is a data read (R83). -/
def Request.readsAtMost16 (r : Request) : Prop :=
  ∀ i n, r.requester = .dataRead i → r.transfer = .read n → n ≤ 16

/-- A transmit FIFO never holds more than 32 bytes: a data read in flight has room for its 16 bytes, and no data read asks
for more (R83). -/
def TransmitFifoBounded (s : State) : Prop :=
  (∀ i : LineNo, (s.line i).tx.fifo.length ≤ 32 ∧
    ((s.line i).tx.readInFlight ≠ none → (s.line i).tx.fifo.length ≤ 16)) ∧
  (∀ r ∈ s.engine.listA ++ s.engine.listB ++ s.engine.listC ++ s.engine.listD, r.readsAtMost16) ∧
  (∀ a, s.engine.access = some a → a.request.readsAtMost16) ∧
  ∀ x ∈ s.engine.results, ∀ i bs, x.requester = .dataRead i → x.data = some bs → bs.length ≤ 16

/-- The condition of a record is started. -/
def RxBuf.isStarted (b : RxBuf) : Prop := ∃ n e f, b.cond = .started n e f

/-- The buffer side of a line agrees: delimiters of 1 to 4 bytes (R65); the match hold empty or a proper prefix of a
delimiter, so at most 3 bytes (R70); every valid record with room for a byte (R54); only the front record started, the
bytes stored in it and held for it fewer than its length, and no RX_DONE in the slot beside it (R56, R70); a write chunk
that takes every later release within its 16 places (R63, R64). -/
def BufferSideAgrees (s : State) : Prop :=
  ∀ i : LineNo,
    (∀ d ∈ (s.line i).rx.delims, 1 ≤ d.bytes.length ∧ d.bytes.length ≤ 4) ∧
    ((s.line i).rx.hold = [] ∨ ∃ d ∈ (s.line i).rx.delims,
      (s.line i).rx.hold.length < d.bytes.length ∧ (s.line i).rx.hold <+: d.bytes) ∧
    (∀ b ∈ (s.line i).rx.bufs, b.isInvalid = false → 1 ≤ b.len) ∧
    (∀ b ∈ (s.line i).rx.bufs.tail, ¬ b.isStarted) ∧
    ((s.line i).hasStarted = true →
      (s.line i).stored + (s.line i).rx.hold.length < (s.line i).frontLength ∧ (s.line i).rx.slot = none) ∧
    ((s.line i).rx.inFlight ≠ none → (s.line i).rx.chunk.length + (s.line i).rx.hold.length ≤ 13) ∧
    ((s.line i).rx.inFlight = none → (s.line i).rx.chunk.length ≤ 15)

/-- An ARMED queue has an unretired count below its threshold (R143). During LOADING every queue is DISARMED (R134). -/
def ArmedBelowThreshold (s : State) : Prop :=
  ∀ c : CqNo, ((s.cq c).notif = .armed → (s.cq c).unretired < (s.cq c).threshold) ∧
    (s.part = .loading → (s.cq c).notif = .disarmed)

/-- The Rate Candidate Table holds at most 12 entries, every entry is in range, and the intervals are pairwise disjoint
(R35, R38). -/
def RateTableValid (s : State) : Prop :=
  s.rateTable.length ≤ 12 ∧ (∀ e ∈ s.rateTable, 32 ≤ e.divisor ∧ e.divisor ≤ 65535 ∧ 16 ≤ e.min ∧ e.min ≤ e.max ∧ e.max ≤ 65535) ∧
    s.rateTable.Pairwise fun a b => a.max < b.min ∨ b.max < a.min

/-- While the Control Unit holds a request it fetches none, and while it holds a SET_RATE_TABLE no line is in SEEK or
TRIAL and the request asks for 1 to 12 entries (R36, R37, R38). -/
def HoldingGuardsTable (s : State) : Prop :=
  s.control.st = .holding → (s.rq 0).fetch = false ∧
    ∀ r, s.control.req = some r → (reqCode r).toNat = 1 →
      (∀ i : LineNo, (s.line i).discovering = false) ∧ 1 ≤ (recByte r 4).toNat ∧ (recByte r 4).toNat ≤ 12

/-- The indices of the request rings lie in their rings, a ring without a size is at rest, and during LOADING every ring
is at rest with its head and tail at 0 (R155). -/
def RequestRingsInRange (s : State) : Prop :=
  ∀ q : RqNo,
    (∀ n, (s.rq q).size = some n → (s.rq q).head < n ∧ (s.rq q).tail < n) ∧
    ((s.rq q).size = none ∨ s.part = .loading → (s.rq q).head = 0 ∧ (s.rq q).tail = 0 ∧ (s.rq q).fetch = false)

/-- The indices of the completion rings lie in their rings (R134). -/
def CompletionRingsInRange (s : State) : Prop :=
  ∀ c : CqNo,
    (∀ n, (s.cq c).size = some n → (s.cq c).head < n ∧ (s.cq c).tail < n) ∧
    (s.part = .loading → (s.cq c).head = 0 ∧ (s.cq c).tail = 0 ∧ (s.cq c).write = .noWrite)

/-! ### Frames -/

/-- The entry size of request ring `q`: 32 bytes for CTLQ, 16 for the others (section 9.2). -/
def ringEntry (q : RqNo) : Nat := if q = 0 then 32 else 16

/-- The read of the record at the head of request queue `q` (R155, R158). -/
def State.fetchRequest (s : State) (q : RqNo) : Request :=
  { requester := .fetch q, addr := (s.rq q).base + BitVec.ofNat 32 (ringEntry q * (s.rq q).head)
    transfer := .read (ringEntry q) }

/-- The chunk write that line `i`, standing as `l`, issues at once: its at most 16 bytes, when none is in flight and the
chunk holds 16 bytes or its buffer has closed (R63). -/
def Line.chunkRequests (l : Line) (i : LineNo) : List Request :=
  if l.rx.inFlight = none ∧ l.rx.chunk ≠ [] ∧ (16 ≤ l.rx.chunk.length ∨ l.rx.slot ≠ none) then
    [{ requester := .chunk i, addr := l.rx.chunkAddr, transfer := .write (l.rx.chunk.take 16) }]
  else []

/-- The data read that line `i`, standing as `l`, requests at once when its next output has been chosen (R83, R85). That a
record which a flush or an abort is to end asks for none is the model's choice (log entry 32). -/
def Line.readRequests (l : Line) (i : LineNo) : List Request :=
  match l.tx.cur with
  | some c =>
    if l.tx.st = .sending ∧ l.tx.ending = none ∧ l.tx.readInFlight = none ∧ l.chooseOutput.tx.fifo.length ≤ 16 ∧
        c.bytesRead < c.record.len then
      [{ requester := .dataRead i, addr := c.record.addr + BitVec.ofNat 32 c.bytesRead
         transfer := .read (min 16 (c.record.len - c.bytesRead)) }]
    else []
  | none => []

/-- The fetches that line `i`, standing as `l`, asks for: of its RPQ first and then of its TXQ (R55, R80, R122, R158). -/
def State.lineFetches (s : State) (i : LineNo) (l : Line) : List Request :=
  (if l.asksRpq (s.rq (rpq i)) then [s.fetchRequest (rpq i)] else []) ++
    (if l.asksTxq (s.rq (txq i)) then [s.fetchRequest (txq i)] else [])

/-- The request queues of `t` are those of `s`, with a fetch in flight of each queue that line `i`, standing as `l`, asks
for (R55, R80, R158). -/
def FetchesBegin (i : LineNo) (l : Line) (s t : State) : Prop :=
  ∀ q : RqNo, t.rq q = { s.rq q with
    fetch := (s.rq q).fetch || (decide (q = rpq i) && l.asksRpq (s.rq q)) ||
      (decide (q = txq i) && l.asksTxq (s.rq q)) }

/-- What a happening of line `i` leaves alone: every other line, every register, flag and timer of the part, the
completion queues, the Control Unit, the tables, host memory and the waiting commands. -/
def OnlyLine (i : LineNo) (s t : State) : Prop :=
  t = { s with lines := t.lines, reqQueues := t.reqQueues, engine := t.engine, rxd := t.rxd } ∧
    ∀ j : LineNo, j ≠ i → t.line j = s.line j ∧ t.rxd[j] = s.rxd[j]

/-- Line `i` takes a happening whose own effect leaves the context `l`: the line then does at once what follows from it
(`Line.settled`), its requests join the backs of their classes' lists, its fetches are in flight, and everything that is
not the line's is left alone: of the Memory Engine the access in progress, the last granted members, the results, class
A and every request that waited. The order of the line's steps, and of its two fetches outside R122, is the model's choice
(log entry 17). -/
def LineTakes (i : LineNo) (s t : State) (l : Line) : Prop :=
  OnlyLine i s t ∧ t.line i = l.settled i s.time (s.rq (txq i)) ∧ FetchesBegin i (t.line i) s t ∧
    t.engine = { s.engine with
      listB := s.engine.listB ++ l.chunkRequests i
      listC := s.engine.listC ++ l.readRequests i
      listD := s.engine.listD ++ s.lineFetches i (t.line i) }

/-- Every line in turn takes a happening whose own effect leaves the contexts `l`, from line 0 to line 7: each does at
once what follows from it (`Line.settled`), its requests join the backs of their classes' lists and its fetches are in
flight. Nothing else changes. That the lines go in the order of their numbers is the model's choice (log entry 17). -/
def AllLinesTake (s t : State) (l : LineNo → Line) : Prop :=
  t = { s with lines := t.lines, reqQueues := t.reqQueues, engine := t.engine } ∧
    (∀ i, t.line i = (l i).settled i s.time (s.rq (txq i))) ∧
    t.rq 0 = s.rq 0 ∧
    (∀ i,
      t.rq (rpq i) = { s.rq (rpq i) with
        fetch := (s.rq (rpq i)).fetch || (t.line i).asksRpq (s.rq (rpq i)) } ∧
      t.rq (txq i) = { s.rq (txq i) with
        fetch := (s.rq (txq i)).fetch || (t.line i).asksTxq (s.rq (txq i)) }) ∧
    t.engine = { s.engine with
      listB := s.engine.listB ++ (List.finRange 8).flatMap fun i => (l i).chunkRequests i
      listC := s.engine.listC ++ (List.finRange 8).flatMap fun i => (l i).readRequests i
      listD := s.engine.listD ++ (List.finRange 8).flatMap fun i => s.lineFetches i (t.line i) }

/-- The consumer of request queue `q` asks for a fetch of it, with the queue as given (R55, R80, R111, R158). -/
def State.consumerAsks (s : State) (q : RqNo) (x : ReqQueue) : Bool :=
  match rqKind q with
  | .ctl => decide (s.control.st = .idle) && s.control.slot.isNone && decide (s.part = .running) && x.fetchable
  | .tx i => (s.line i).asksTxq x
  | .rp i => (s.line i).asksRpq x

/-- A control record has been read for the Control Unit and waits to be taken, with the part RUNNING and the control queue
not empty (R111, R159). -/
def ControlDelivered (s : State) (r : List Byte) : Prop :=
  s.resetHeld = false ∧ s.part = .running ∧ (s.rq 0).fetch = true ∧ (s.rq 0).head ≠ (s.rq 0).tail ∧
    ∃ x, s.result? (.fetch 0) = some x ∧ x.data = some r

/-- The command that takes a control request, by the request's code (section 12.3). -/
def requestCommand (code : Nat) : Instr :=
  match code with
  | 0 => .nop
  | 1 => .setRateTable
  | 2 => .openLine
  | 3 => .modifyLine
  | 4 => .setDelimiters
  | 5 => .rediscover
  | 6 => .flushTx
  | 7 => .flushRx
  | 8 => .closeLine
  | 9 => .queryLine
  | 10 => .restartQueue
  | _ => .unassignedRequestCode

/-- The code and the allowed line states of the requests whose pending-request and line-state checks are those of R114
(the table that opens chapter 7). -/
def lineRequest : Instr → Option (Nat × List LineState)
  | .openLine => some (2, [.closed])
  | .modifyLine => some (3, [.seek, .trial, .opened])
  | .setDelimiters => some (4, [.seek, .trial, .opened])
  | .rediscover => some (5, [.opened])
  | .flushTx => some (6, [.seek, .trial, .opened])
  | .flushRx => some (7, [.opened])
  | _ => none

/-- How many turns member `m` is behind the member after `last` in the cyclic order of R172. -/
def turnsAfter (last m : Member) : Nat := (m - last - 1).val

/-- The accesses whose failure faults the whole part, by the command that takes the result, and the cause (R111, R137,
R162, R183). -/
def fatalAccess : Instr → Option (Requester × Cause)
  | .fetchEnds q => if q = 0 then some (.fetch 0, .controlFetch) else none
  | .bodyAccessEnds c => some (.body c, .completionWrite)
  | .headWordEnds c => some (.headWord c, .completionWrite)
  | .progressWriteEnds => some (.progress, .progressWrite)
  | .zeroProgressWriteEnds => some (.zeroProgress, .progressWrite)
  | _ => none

/-- The block that made the request still waits for its result (R135, R155, R159, R183). -/
def State.awaits (s : State) : Requester → Bool
  | .fetch q => (s.rq q).fetch
  | .body c => decide ((s.cq c).write = .body)
  | .headWord c => decide ((s.cq c).write = .headWord)
  | .progress => s.progressActive
  | .zeroProgress => decide (s.part = .loading)
  | _ => false

/-- The request a class grants next (R172): the oldest of its member, and no member with a waiting request comes before
that one in cyclic order after the last granted. -/
def NextInTurn (last : Member) (rs : List Request) (r : Request) : Prop :=
  (rs.find? fun x => x.requester.member = r.requester.member) = some r ∧
    ∀ x ∈ rs, turnsAfter last r.requester.member ≤ turnsAfter last x.requester.member

/-- Line `l`, whose front record `b` is started with `n` bytes stored, after the bytes `bs` are stored in it: they have
entered the write chunk (R63), the error summary and the first-error offset are `e` and `f` (R72), and `h` is held. -/
def Line.storing (l : Line) (b : RxBuf) (rest : List RxBuf) (n : Nat) (bs : List Byte) (e : ErrorSet)
    (f : Option Nat) (h : List Byte) : Line :=
  { l with rx := { l.rx with
      bufs := { b with cond := .started (n + bs.length) e f } :: rest
      chunk := l.rx.chunk ++ bs
      chunkAddr := if l.rx.chunk = [] ∧ bs ≠ [] then b.addr + BitVec.ofNat 32 n else l.rx.chunkAddr
      hold := h } }

/-- Line `l`, whose front record `b` is started with `n` bytes stored, after the bytes `bs` are stored in it and it has
closed: its RX_DONE is in the receive pending slot (R73, R74). -/
def Line.closing (l : Line) (i : LineNo) (time : Word) (b : RxBuf) (rest : List RxBuf) (n : Nat) (bs : List Byte)
    (e : ErrorSet) (f : Option Nat) (reason : RxReason) (delim : Option Nat) : Line :=
  { l with rx := { l.rx with
      bufs := rest
      chunk := l.rx.chunk ++ bs
      chunkAddr := if l.rx.chunk = [] ∧ bs ≠ [] then b.addr + BitVec.ofNat 32 n else l.rx.chunkAddr
      hold := []
      slot := some { dest := l.set.boundCq, time := time
                     body := .rxDone i b.tag (n + bs.length) reason e f delim } } }

/-- The error summary with the flags of `added`, and the first-error offset when they join at `offset` (R72). -/
def summaryWith (e : ErrorSet) (f : Option Nat) (added : ErrorSet) (offset : Nat) : ErrorSet × Option Nat :=
  ({ parity := e.parity || added.parity, framing := e.framing || added.framing, overrun := e.overrun || added.overrun },
    if e = ErrorSet.empty ∧ added ≠ ErrorSet.empty then some offset else f)

/-- Every byte of memory outside the `n` bytes from `a` reads as before. -/
def SameMemoryOutside (a n : Nat) (s t : State) : Prop :=
  ∀ x : Nat, x < a ∨ a + n ≤ x → memRead t.mem x = memRead s.mem x

/-- What a failed or abandoned write of `bs` at `a` leaves in memory (R173, R177): each byte has landed or not, as a free
value says, and every other byte reads as before. -/
def PartlyWritten (a : Nat) (bs : List Byte) (s t : State) : Prop :=
  SameMemoryOutside a bs.length s t ∧ t.freeNext = s.freeNext + bs.length ∧
    ∀ k (h : k < bs.length), memRead t.mem (a + k) =
      if Config.failedWriteLands (s.freeNext + k) then some bs[k] else memRead s.mem (a + k)

/-- The access in progress is abandoned (R177): memory is unchanged but for what its write, if it is one, leaves there. -/
def AbandonsAccess (s t : State) : Prop :=
  ((∀ a bs, s.engine.access = some a → a.request.transfer ≠ .write bs) → t.mem = s.mem ∧ t.freeNext = s.freeNext) ∧
    ∀ a bs, s.engine.access = some a → a.request.transfer = .write bs → PartlyWritten a.request.addr.toNat bs s t

/-- The body write of the next entry of completion queue `c`, as `x` (R135, R193): none, or the request for the 12 bytes
after the head word of the slot at the tail, where a record is staged, no write is in progress and the queue is not
full. -/
def bodyRequests (c : CqNo) (x : CplQueue) : List Request :=
  match x.staging with
  | e :: _ =>
    if x.write = .noWrite ∧ x.isFull = false then
      [{ requester := .body c, addr := x.base + BitVec.ofNat 32 (16 * x.tail) + 4
         transfer := .write (e.record.body.bytes ++ wordBytes e.record.time) }]
    else []
  | [] => []

/-- The record of producer `p` has been admitted, which leaves `u`: the producer's place gives it up and its block goes on
at once (R139). -/
def GivesUp (p : Producer) (u t : State) : Prop :=
  match p with
  | .rxSlot i => LineTakes i u t { u.line i with rx := { (u.line i).rx with slot := none } }
  | .txSlot i => LineTakes i u t { u.line i with tx := { (u.line i).tx with slot := none } }
  | .events i => LineTakes i u t { u.line i with events := (u.line i).events.tail }
  | .control => t = State.askCtl { u with control := { u.control with slot := none } }

/-! ### Enumerations (sections 12.7 and 12.8) -/

/-- The code of a status. -/
def statusCode : Status → Byte
  | .ok => 0
  | .aborted => 1
  | .flushed => 2
  | .busError => 3
  | .addressFault => 4
  | .badRecord => 5
  | .badRequest => 6
  | .badParam => 7
  | .lineState => 8
  | .lineBusy => 9
  | .trialAmbiguous => 10
  | .tableOverlap => 11
  | .tableInUse => 12
  | .noRateTable => 13
  | .delimiterConflict => 14
  | .queueState => 15

/-- The code of a reason of an RX_DONE. -/
def reasonCode : RxReason → Nat
  | .full => 0
  | .delimiter => 1
  | .gap => 2
  | .brk => 3
  | .error => 4
  | .flushed => 5
  | .closed => 6
  | .rateChange => 7
  | .badRecord => 8
  | .addressFault => 9
  | .busError => 10

/-- The code of a parity kind. -/
def parityCode : Parity → Byte
  | .noParity => 0
  | .even => 1
  | .odd => 2
  | .mark => 3
  | .space => 4

/-! ### The Line Report and the completion entries -/

/-- The layout of a Line Report (section 12.6). A number too large for its field, which no reachable line holds, keeps its
low bits. -/
def ReportLayout (l : Line) (r : List Byte) : Prop :=
  r.length = 64 ∧
  recByte r 0 = (match l.state with
    | .closed => 0
    | .seek => 1
    | .trial => 2
    | .opened => 3
    | .closing => 4) ∧
  recByte r 1 = (match l.close.mode with
    | some .graceful => 0
    | some .immediate => 1
    | none => 0xFF) ∧
  recByte r 2 = (match l.long with
    | .noRequest => 0
    | .flushTx _ => 1
    | .closeLine _ _ => 2
    | .twoCloses _ _ => 3) ∧
  recByte r 3 = (match l.tx.st with
    | .idle => 0
    | .sending => 1
    | .brk => 2) ∧
  recBit r 4 0 = decide (l.set.flowMode = .inband) ∧ recBit r 4 1 = l.flow.ownPaused ∧
  recBit r 4 2 = l.flow.peerPaused ∧ recBit r 4 3 = l.rx.gapArmed ∧ recBit r 4 4 = l.set.closeOnError ∧
  recBit r 4 5 = l.set.keepTrial ∧ recBit r 4 6 = l.rx.lossPending ∧ recBit r 4 7 = l.rx.lossCarried ∧
  recByte r 5 = (match l.rateIndex with
    | some k => BitVec.ofNat 8 k
    | none => 0xFF) ∧
  recHalf r 6 = BitVec.ofNat 16 l.divisor ∧ recByte r 8 = BitVec.ofNat 8 l.frame.dataBits ∧
  recByte r 9 = parityCode l.frame.parity ∧
  recByte r 10 = BitVec.ofNat 8 l.frame.stopBits ∧ recByte r 11 = BitVec.ofNat 8 l.set.boundCq.val ∧
  recByte r 12 = BitVec.ofNat 8 l.set.highMark ∧ recByte r 13 = BitVec.ofNat 8 l.set.lowMark ∧
  recByte r 14 = BitVec.ofNat 8 l.set.gap ∧ recByte r 15 = BitVec.ofNat 8 l.set.breakLength ∧
  recHalf r 16 = BitVec.ofNat 16 l.set.pauseLimit ∧
  recHalf r 18 = (match l.tx.cur with
    | some c => BitVec.ofNat 16 (c.record.len - c.bytesSent)
    | none => 0) ∧
  recByte r 20 = BitVec.ofNat 8 l.rx.fifo.length ∧ recByte r 21 = BitVec.ofNat 8 l.rx.hold.length ∧
  (l.rx.bufs.length < 8 → l.events.length < 8 →
    (recByte r 22).toNat = l.rx.bufs.length + 16 * l.events.length) ∧
  recByte r 23 = BitVec.ofNat 8 l.disc.attempts ∧
  recWord r 24 = l.counters.rxChars ∧ recWord r 28 = l.counters.txChars ∧ recWord r 32 = l.counters.parityErrors ∧
  recWord r 36 = l.counters.framingErrors ∧ recWord r 40 = l.counters.overruns ∧ recWord r 44 = l.counters.breaks ∧
  recWord r 48 = l.counters.gapCloses ∧ recWord r 52 = l.counters.trialsFailed ∧
  recWord r 56 = l.counters.eventsLost ∧ recWord r 60 = l.counters.flushedEntries

/-- The layout of bytes 4 to 11 of a completion entry (section 12.5, R193), as bytes 0 to 7 of `r`: absent fields are all
ones, reserved bytes 0. -/
def CompletionLayout (b : CplBody) (r : List Byte) : Prop :=
  r.length = 8 ∧
  match b with
  | .controlDone code line tag st =>
    recByte r 0 = code ∧
    recByte r 1 = (match line with
      | some i => BitVec.ofNat 8 i.val
      | none => 0xFF) ∧
    recHalf r 2 = tag ∧ recByte r 4 = statusCode st ∧ recByte r 5 = 0 ∧ recHalf r 6 = 0
  | .txDone i tag sent st =>
    recByte r 0 = BitVec.ofNat 8 i.val ∧ recByte r 1 = statusCode st ∧ recHalf r 2 = tag ∧
    recHalf r 4 = BitVec.ofNat 16 sent ∧ recHalf r 6 = 0
  | .rxDone i tag count reason e first delim =>
    (recByte r 0).toNat = i.val + (if e.parity then 16 else 0) + (if e.framing then 32 else 0) +
      (if e.overrun then 64 else 0) ∧
    (recByte r 1).toNat = reasonCode reason + 16 * (match delim with
      | some k => k % 16
      | none => 15) ∧
    recHalf r 2 = tag ∧ recHalf r 4 = BitVec.ofNat 16 count ∧
    recHalf r 6 = (match first with
      | some n => BitVec.ofNat 16 n
      | none => 0xFFFF)
  | .rateFound i k f d =>
    recByte r 0 = BitVec.ofNat 8 i.val ∧ recByte r 1 = 0 ∧ recByte r 2 = BitVec.ofNat 8 k ∧
    recByte r 3 = BitVec.ofNat 8 f.dataBits ∧ recByte r 4 = parityCode f.parity ∧ recByte r 5 = BitVec.ofNat 8 f.stopBits ∧
    recHalf r 6 = BitVec.ofNat 16 d
  | .rateNotFound i reason n =>
    recByte r 0 = BitVec.ofNat 8 i.val ∧ recByte r 1 = 1 ∧
    recByte r 2 = (match reason with
      | .attempts => 0
      | .timeout => 1) ∧
    recByte r 3 = BitVec.ofNat 8 n ∧ recWord r 4 = 0
  | .breakIdle i => recByte r 0 = BitVec.ofNat 8 i.val ∧ recByte r 1 = 2 ∧ recHalf r 2 = 0 ∧ recWord r 4 = 0
  | .pauseExpired i => recByte r 0 = BitVec.ofNat 8 i.val ∧ recByte r 1 = 3 ∧ recHalf r 2 = 0 ∧ recWord r 4 = 0
  | .queueHalted i q slot =>
    recByte r 0 = BitVec.ofNat 8 i.val ∧ recByte r 1 = 4 ∧ recByte r 2 = BitVec.ofNat 8 q.val ∧ recByte r 3 = 0 ∧
    recHalf r 4 = BitVec.ofNat 16 slot ∧ recHalf r 6 = 0

/-- The kind code of a completion record (section 12.5). -/
def kindCode : CplBody → Nat
  | .controlDone .. => 1
  | .txDone .. => 2
  | .rxDone .. => 3
  | .rateFound .. => 4
  | .rateNotFound .. => 4
  | .breakIdle .. => 4
  | .pauseExpired .. => 4
  | .queueHalted .. => 4

/-! ### The Setup Record -/

/-- A ring size of R182: a power of two from 4 to 1024. -/
def RingSize (n : Nat) : Prop := ∃ k, 2 ≤ k ∧ k ≤ 10 ∧ n = 2 ^ k

/-- Window `n` of a Setup Record passes its checks (R182, row 1). -/
def WindowPasses (r : List Byte) (n : Nat) : Prop :=
  (recWord r (12 * n + 4)).toNat ≠ 0 →
    (recWord r (12 * n + 4)).toNat % 16 = 0 ∧ (recWord r (12 * n)).toNat % 16 = 0 ∧
      (recWord r (12 * n)).toNat + (recWord r (12 * n + 4)).toNat ≤ 2 ^ 32

/-- Request ring `q` of a Setup Record passes its checks (R182, row 2). -/
def RequestRingPasses (r : List Byte) (q : RqNo) : Prop :=
  RingSize (recHalf r (0x60 + 8 * q.val + 4)).toNat ∧ (recWord r (0x60 + 8 * q.val)).toNat % ringEntry q = 0 ∧
    rangeAllowed (setupWindows r) false (recWord r (0x60 + 8 * q.val))
      ((recHalf r (0x60 + 8 * q.val + 4)).toNat * ringEntry q) = true

/-- Completion ring `c` of a Setup Record passes its checks (R182, row 3). -/
def CompletionRingPasses (r : List Byte) (c : CqNo) : Prop :=
  RingSize (recHalf r (0xE8 + 8 * c.val + 4)).toNat ∧
    ((recWord r (0xE8 + 8 * c.val)).toNat % 16 = 0 ∧
      (recWord r (0xE8 + 8 * c.val)).toNat + (recHalf r (0xE8 + 8 * c.val + 4)).toNat * 16 ≤ 2 ^ 32) ∧
    1 ≤ (recByte r (0x108 + c.val)).toNat

/-- The progress block of a Setup Record passes its check (R182, row 4). -/
def ProgressPasses (r : List Byte) : Prop :=
  (recWord r 0x10C).toNat % 4 = 0 ∧ (recWord r 0x10C).toNat + 33 ≤ 0xFFFFFFFF

end Sys2Proof.Machine
end

