-- ==== Sys2Proof/WellFormed.lean ====
section
/-! DEFINITION. Which commands can arise at all: the checks on the operands a happening carries. The meanings are total
and are given for the other terms too; a term that fails a check here stands for no happening of the part. -/

namespace Sys2Proof

/-- A write of the register window is one that changes nothing (R152): it is narrower than 32 bits, or its offset is none
of CONTROL, SETUP_ADDR, POST and RETIRE. -/
def ignoredWrite (offset : Nat) (narrow : Bool) : Bool :=
  narrow || !(decide (offset = 0x00) || decide (offset = 0x08) || decide (offset = 0x0C) || decide (offset = 0x10))

/-- The sampled bits of one character (R18, R21): 7 to 12 bits, a start bit at space, and not every bit at space, since
that is a break. -/
def characterBits (bits : List Bool) : Bool :=
  decide (7 ≤ bits.length ∧ bits.length ≤ 12) && decide (bits.head? = some false) && bits.any id

/-- The longest transfer of one access is the Setup Record's, 272 bytes (R170). -/
def replyFits : BusReply → Bool
  | .normal data => decide (data.length ≤ 272)
  | .error => true
  | .late => true

/-- The checks on a command's operands. Every other operand takes every value its type holds. -/
def Instr.wf : Instr → Bool
  | .registerWriteIgnored offset narrow _ => ignoredWrite offset narrow
  | .characterCompletes _ bits => characterBits bits
  | .busResponse reply => replyFits reply
  | .pinReset => true
  | .pinResetRelease => true
  | .runWritten1 => true
  | .runWritten0 => true
  | .softReset _ => true
  | .softResetTakesEffect => true
  | .statusRead => true
  | .setupAddrWrite _ => true
  | .post _ _ => true
  | .retire _ _ => true
  | .retireArm _ _ => true
  | .nop => true
  | .unassignedRequestCode => true
  | .setRateTable => true
  | .openLine => true
  | .modifyLine => true
  | .setDelimiters => true
  | .rediscover => true
  | .flushTx => true
  | .flushRx => true
  | .closeLine => true
  | .queryLine => true
  | .restartQueue => true
  | .breakBegins _ => true
  | .breakEnds _ => true
  | .lowInterval _ _ => true
  | .gapTimerExpiry _ => true
  | .discoveryTimeoutExpiry _ => true
  | .trialWindowExpiry _ => true
  | .drainLimitExpiry _ => true
  | .pauseLimitExpiry _ => true
  | .breakTimerExpiry _ => true
  | .dataCharacterSent _ => true
  | .flowCharacterEnds _ => true
  | .accessGrant => true
  | .accessTimeout => true
  | .chunkWriteEnds _ => true
  | .dataReadEnds _ => true
  | .fetchEnds _ => true
  | .tableReadEnds => true
  | .reportWriteEnds => true
  | .bodyAccessEnds _ => true
  | .headWordEnds _ => true
  | .progressWriteEnds => true
  | .setupRecordReadEnds => true
  | .zeroProgressWriteEnds => true
  | .takeCharacterEntry _ => true
  | .takeGapMarker _ => true
  | .takeBreakMarker _ => true
  | .answerInvalidRecord _ => true
  | .offer _ => true
  | .windUpBufferAnswer _ => true
  | .windUpEnd _ => true
  | .moderationTimerExpiry _ => true
  | .stopLimitExpiry => true
  | .stoppingEnds => true
  | .fallingEdge _ => true
  | .falseStart _ => true
  | .microsecondCountRises => true

end Sys2Proof
end

