-- ==== Sys2Proof/Certificates/Slice0/Obligations.lean ====
section
/-! DEFINITION. The statements for the provers. Each docstring names the rules a statement formalises. A statement about a
command says what state the command answers, and what it leaves alone: `LineTakes` (Safety.lean) says that a line takes a
happening and does at once what follows from it, in an order that is the model's choice where no rule gives one (log
entries 17, 20, 21, 32; `Obligations.LineMakesItsRequests`). -/

section Statements
open Sys2Proof Sys2Proof.Machine

/-! ### The step and the pins -/

/-- The block takes the command at the front of its queue, with the queue's rest behind it. That it idles on an empty queue
is the model's choice (log entry 3). -/
def Obligations.StepTakesFrontCommand : Prop :=
  ∀ s : State,
    (∀ c rest, s.pending = c :: rest → step s = exec c { s with pending := rest }) ∧
    (s.pending = [] → step s = .next s)

/-- R190. Every command answers a next state, leaves the queue of waiting commands alone, and only the two commands of the
RESET# pin change whether the part is held in reset. That a command whose happening cannot occur answers too, and that the
waiting commands are a queue of their own, is the model's choice (log entries 5, 28). -/
def Obligations.EveryCommandAnswers : Prop :=
  ∀ (c : Instr) (s : State), ∃ t, exec c s = .next t ∧ t.pending = s.pending ∧
    t.resetHeld = match c with
      | .pinReset => true
      | .pinResetRelease => false
      | _ => s.resetHeld

/-- R190. PIN_RESET puts every block into its values after pin reset and holds the part; while it is held no happening
is taken, a register read returns 0 and every notification output is deasserted; PIN_RESET_RELEASE leaves the values
after pin reset. Host memory changes at most in the range of an abandoned write, each byte of it landed or not (log
entry 1). That PIN_RESET itself puts the values and its release puts them again, that the levels of the receive pins and
the word last read are kept, and what the fields without a stated reset value hold, is the model's choice (log entries
11, 12, 13). -/
def Obligations.PinResetHoldsThePart : Prop :=
  (∀ s : State, s.resetHeld = false → ∃ t, exec .pinReset s = .next t ∧
    t = { State.reset with
            resetHeld := true, rxd := s.rxd, mem := t.mem, freeNext := t.freeNext, readData := s.readData,
            pending := s.pending } ∧ AbandonsAccess s t) ∧
  (∀ (c : Instr) (s : State), s.resetHeld = true → c ≠ .pinResetRelease → c ≠ .statusRead → exec c s = .next s) ∧
  (∀ s : State, s.resetHeld = true → exec .statusRead s = .next { s with readData := 0 } ∧
    (∀ offset narrow, s.windowRead offset narrow = 0) ∧ ∀ c, s.intAsserted c = false) ∧
  ∀ s : State, s.resetHeld = true → exec .pinResetRelease s =
    .next { State.reset with
              rxd := s.rxd, mem := s.mem, freeNext := s.freeNext, readData := s.readData, pending := s.pending }

/-- R191. A soft reset takes effect at once with no access in progress, and otherwise when the access has ended; it leaves
the values after pin reset but for the cause and FAULT_ADDR. Until then no request is granted and a further SOFT_RESET
changes nothing. That the RUN bit of the write is not stored and the effect without an access needs no taking of its own,
that a SOFT_RESET_TAKES_EFFECT which cannot occur (an access in progress, or no soft reset waiting) changes nothing, that
the receive pins' levels and the word last read are kept, and what the fields without a stated reset value hold, is the
model's choice (log entries 5, 11, 12, 14). -/
def Obligations.SoftResetKeepsTheCause : Prop :=
  ∀ (s : State) (run : Bool), s.resetHeld = false →
    (s.softPending = false → s.engine.access = none → exec (.softReset run) s =
      .next { State.reset with
                cause := s.cause, faultAddr := s.faultAddr, rxd := s.rxd, mem := s.mem, freeNext := s.freeNext,
                readData := s.readData, pending := s.pending }) ∧
    (s.softPending = false → s.engine.access ≠ none → exec (.softReset run) s = .next { s with softPending := true }) ∧
    (s.softPending = true → exec (.softReset run) s = .next s ∧ exec .accessGrant s = .next s) ∧
    (s.softPending = true → s.engine.access = none → exec .softResetTakesEffect s =
      .next { State.reset with
                cause := s.cause, faultAddr := s.faultAddr, rxd := s.rxd, mem := s.mem, freeNext := s.freeNext,
                readData := s.readData, pending := s.pending }) ∧
    (s.softPending = false ∨ s.engine.access ≠ none → exec .softResetTakesEffect s = .next s)

/-! ### CONTROL, STATUS, SETUP_ADDR, POST, RETIRE and the Time Base -/

/-- R178, R180, R181, R170. RUN written 1 in STOPPED puts the run state into its starting values and reads the Setup
Record, or fails at once where the record would run past the address space; in every other state it is stored. That the
thresholds, the moderation delays and the progress address are 0 from here on, that an unused window and a fresh line hold
the values of log entry 12, that an access let end at a fault is abandoned (each byte of its write landed or not), and
that the read waits behind a soft reset, is the model's choice (log entries 1, 10, 12, 15, 25). -/
def Obligations.RunWritten1StartsLoading : Prop :=
  ∀ s : State, s.resetHeld = false →
    (s.part ≠ .stopped → exec .runWritten1 s = .next { s with run := true }) ∧
    (s.part = .stopped → ∃ t, exec .runWritten1 s = .next t ∧
      t = { s with
              run := true, part := t.part, cause := t.cause, discarded := false, faultAddr := t.faultAddr,
              notifyFault := false, stopLimit := none, stopExpired := false, loadAbandoned := false,
              windows := unusedWindows, rateTable := [], lines := freshLines,
              reqQueues := Vector.replicate 17 ReqQueue.reset, cplQueues := Vector.replicate 4 CplQueue.reset,
              progressAddr := 0, progressWaits := false, progressActive := false, engine := t.engine,
              control := ControlUnit.reset, mem := t.mem, freeNext := t.freeNext } ∧
      AbandonsAccess s t ∧
      (maxAddress < s.setupAddr.toNat + 271 →
        t.part = .stopped ∧ t.cause = .setupInvalid ∧ t.faultAddr = s.setupAddr ∧ t.engine = Engine.reset) ∧
      (s.setupAddr.toNat + 271 ≤ maxAddress → t.part = .loading ∧ t.cause = .noCause ∧ t.faultAddr = 0 ∧
        ∀ r : Request, r = { requester := .setupRead, addr := s.setupAddr, transfer := .read 272 } →
          t.engine =
            if s.softPending then { Engine.reset with listA := [r] }
            else { Engine.reset with access := some { request := r, began := s.time, deliver := true } }))

/-- R178, R184, R185, R16. RUN written 0 begins a stop in RUNNING, with the stop limit at 100 ms and every line in
SEEK, TRIAL or OPEN in an immediate close, a graceful drain cut short; abandons LOADING; takes FAULTED to STOPPED; and is
stored in every other state. That the lines' requests join their lists in the order of the line numbers, and that an
abandoned LOADING keeps the last granted members, leaves the thresholds, the delays and the progress address at 0 and an
unused window's base 0 with no permission, is the model's choice (log entries 12, 15, 17, 24); so is that an access which
has ended, with its result untaken, does not keep the start-up from being abandoned (log entry 34). -/
def Obligations.RunWritten0StopsThePart : Prop :=
  ∀ s : State, s.resetHeld = false →
    (s.part = .running → ∃ t, exec .runWritten0 s = .next t ∧
      AllLinesTake { s with run := false, part := .stopping, stopLimit := some 100000 } t (fun i =>
        if inSession (s.line i).state = true then
          Line.abort { s.line i with state := .closing, close := { (s.line i).close with mode := some .immediate } } i s.time
        else if (s.line i).draining = true then (s.line i).abort i s.time
        else s.line i) ∧
      ∀ i, inSession (s.line i).state = true →
        (t.line i).state = .closing ∧ (t.line i).close.mode = some .immediate ∧ (t.line i).long = (s.line i).long ∧
          (t.line i).rx.fifo = [] ∧ (t.line i).rx.hold = [] ∧ (t.line i).flow.slot = none) ∧
    (s.part = .loading → s.loadingAccess = true →
      exec .runWritten0 s =
        .next { s with run := false, loadAbandoned := true, engine := s.engine.discardAll }) ∧
    (s.part = .loading → s.loadingAccess = false →
      exec .runWritten0 s =
        .next { s with
                  run := false, part := .stopped, loadAbandoned := false, windows := unusedWindows,
                  reqQueues := Vector.replicate 17 ReqQueue.reset, cplQueues := Vector.replicate 4 CplQueue.reset,
                  progressAddr := 0, progressWaits := false, progressActive := false,
                  engine := s.engine.discardAll }) ∧
    (s.part = .faulted → exec .runWritten0 s = .next { s with run := false, part := .stopped }) ∧
    (s.part = .stopped ∨ s.part = .stopping → exec .runWritten0 s = .next { s with run := false })

/-- R179, R152, R143, R150, R178, R194. A STATUS read returns the part state, the cause and the three flags in their
bits, every other bit 0, and clears the two REJECTED flags. A read of CONTROL, SETUP_ADDR, NOTIFY, FAULT_ADDR and
TIMESTAMP returns what the register holds, and any other read, or a narrow one, 0. A notification output is asserted
with its queue's notification state, and INT0 with NOTIFY.FAULT too. A write is split into its fields as section 12.8
lays them out, and an ignored one changes nothing. That the word a STATUS read returns is kept in a field, and that the
other reads are a function and no command, is the model's choice (log entry 27). -/
def Obligations.RegisterWindowAnswers : Prop :=
  (∀ s : State, s.resetHeld = false →
    (∃ t, exec .statusRead s = .next t ∧
      t = { s with readData := t.readData, postRejected := false, retireRejected := false } ∧
      t.readData = s.windowRead 0x04 false ∧
      t.readData.extractLsb' 0 3 = (match s.part with
        | .stopped => 0
        | .loading => 1
        | .running => 2
        | .stopping => 3
        | .faulted => 4) ∧
      t.readData.extractLsb' 4 3 = (match s.cause with
        | .noCause => 0
        | .setupBusError => 1
        | .setupInvalid => 2
        | .completionWrite => 3
        | .progressWrite => 4
        | .controlFetch => 5) ∧
      t.readData.getLsbD 8 = s.discarded ∧ t.readData.getLsbD 9 = s.postRejected ∧
      t.readData.getLsbD 10 = s.retireRejected ∧
      ∀ k, k = 3 ∨ k = 7 ∨ 11 ≤ k → t.readData.getLsbD k = false) ∧
    s.windowRead 0x00 false = (if s.run then 1 else 0) ∧ s.windowRead 0x08 false = s.setupAddr ∧
    s.windowRead 0x18 false = s.faultAddr ∧ s.windowRead 0x1C false = s.time ∧
    (∀ c : CqNo, (s.windowRead 0x14 false).getLsbD c.val = decide ((s.cq c).notif = .asserted)) ∧
    (s.windowRead 0x14 false).getLsbD 8 = s.notifyFault ∧
    (∀ k, 4 ≤ k → k ≠ 8 → (s.windowRead 0x14 false).getLsbD k = false) ∧
    (∀ offset narrow, narrow = true ∨ offset ∉ [0x00, 0x04, 0x08, 0x14, 0x18, 0x1C] →
      s.windowRead offset narrow = 0) ∧
    (∀ c : CqNo, s.intAsserted c = true ↔ (s.cq c).notif = .asserted ∨ (c = 0 ∧ s.notifyFault = true)) ∧
    ∀ offset narrow value, ignoredWrite offset narrow = true →
      windowWrite offset narrow value = .registerWriteIgnored offset narrow value ∧
        exec (.registerWriteIgnored offset narrow value) s = .next s) ∧
  ∀ v : Word,
    windowWrite 0x00 false v =
      (if v.getLsbD 1 then .softReset (v.getLsbD 0) else if v.getLsbD 0 then .runWritten1 else .runWritten0) ∧
    windowWrite 0x08 false v = .setupAddrWrite v ∧
    (∀ (q : BitVec 5) (tail : Half), q.toNat = v.toNat / 2 ^ 16 % 2 ^ 5 → tail.toNat = v.toNat % 2 ^ 16 →
      windowWrite 0x0C false v = .post q tail) ∧
    ∀ (q : BitVec 4) (head : Half), q.toNat = v.toNat / 2 ^ 16 % 2 ^ 4 → head.toNat = v.toNat % 2 ^ 16 →
      windowWrite 0x10 false v = if v.getLsbD 31 then .retireArm q head else .retire q head

/-- R153, R190, R191. SETUP_ADDR is stored while STOPPED and ignored otherwise; nothing else changes it but the two resets,
which leave 0: PIN_RESET_RELEASE, and a soft reset as it takes effect; and the Setup Record is read from the address it
holds when LOADING begins. That PIN_RESET itself leaves 0 already is the model's choice (log entry 13). -/
def Obligations.SetupAddrHolds : Prop :=
  (∀ (s : State) (v : Word), s.resetHeld = false →
    (s.part = .stopped → exec (.setupAddrWrite v) s = .next { s with setupAddr := v }) ∧
    (s.part ≠ .stopped → exec (.setupAddrWrite v) s = .next s)) ∧
  (∀ (c : Instr) (s t : State), exec c s = .next t →
    t.setupAddr = s.setupAddr ∨ (s.part = .stopped ∧ ∃ v, c = .setupAddrWrite v) ∨
      (t.setupAddr = 0 ∧ t.part = .stopped ∧
        (c = .pinReset ∨ c = .pinResetRelease ∨ c = .softResetTakesEffect ∨ ∃ run, c = .softReset run))) ∧
  (∀ s t : State, s.resetHeld = false → exec .pinReset s = .next t → t.setupAddr = 0) ∧
  (∀ s t : State, s.resetHeld = true → exec .pinResetRelease s = .next t → t.setupAddr = 0) ∧
  (∀ (s t : State) (run : Bool), s.resetHeld = false → s.softPending = false → s.engine.access = none →
    exec (.softReset run) s = .next t → t.setupAddr = 0) ∧
  (∀ s t : State, s.resetHeld = false → s.softPending = true → s.engine.access = none →
    exec .softResetTakesEffect s = .next t → t.setupAddr = 0) ∧
  ∀ s t : State, s.resetHeld = false → s.part = .stopped → s.setupAddr.toNat + 271 ≤ maxAddress →
    s.softPending = false → exec .runWritten1 s = .next t →
    t.engine.access.map (·.request) = some { requester := .setupRead, addr := s.setupAddr, transfer := .read 272 }

/-- R156, R158, R194. A POST that passes its checks sets the queue's tail, and its consumer asks for a fetch at once if its
conditions hold: one class D read of the record at the head, of 32 bytes at the base and 32 for each slot before it for
the control queue, and of 16 bytes likewise for every other. Any other POST sets POST_REJECTED and changes nothing
else. -/
def Obligations.PostMovesTheTail : Prop :=
  ∀ (s : State) (b : BitVec 5) (tail : Half), s.resetHeld = false →
    (∀ (q : RqNo) (n : Nat), s.part = .running → b.toNat = q.val → (s.rq q).size = some n → tail.toNat < n →
      ∃ t, exec (.post b tail) s = .next t ∧
        t = { s with
                reqQueues := t.reqQueues
                control := { s.control with
                  st := if q = 0 ∧ s.consumerAsks q { s.rq q with tail := tail.toNat } = true then .fetching
                        else s.control.st }
                engine := { s.engine with
                  listD := s.engine.listD ++
                    if s.consumerAsks q { s.rq q with tail := tail.toNat } = true then
                      [if q = 0 then
                        { requester := .fetch q, addr := (s.rq q).base + BitVec.ofNat 32 (32 * (s.rq q).head)
                          transfer := .read 32 }
                       else
                        { requester := .fetch q, addr := (s.rq q).base + BitVec.ofNat 32 (16 * (s.rq q).head)
                          transfer := .read 16 }]
                    else [] } } ∧
        (∀ p, p ≠ q → t.rq p = s.rq p) ∧
        t.rq q = { s.rq q with
          tail := tail.toNat
          fetch := (s.rq q).fetch || s.consumerAsks q { s.rq q with tail := tail.toNat } }) ∧
    ((s.part ≠ .running ∨ 16 < b.toNat ∨ ∀ q : RqNo, b.toNat = q.val → (s.rq q).size.getD 0 ≤ tail.toNat) →
      exec (.post b tail) s = .next { s with postRejected := true })

/-- R142, R144, R145, R194, R135. A RETIRE that passes its checks sets the queue's head, and a body write that the
queue's fullness held back begins; with ARM clear the notification stays, with ARM set it becomes ASSERTED or ARMED by
the unretired count, the threshold and the delay. Any other RETIRE sets RETIRE_REJECTED and changes nothing else. -/
def Obligations.RetireMovesTheHead : Prop :=
  ∀ (s : State) (b : BitVec 4) (head : Half), s.resetHeld = false →
    (∀ (c : CqNo) (n : Nat), s.part = .running ∨ s.part = .stopping → b.toNat = c.val → (s.cq c).size = some n →
      head.toNat < n → ringDist head.toNat (s.cq c).head n ≤ (s.cq c).unretired →
      ∀ x : CplQueue, x = { s.cq c with head := head.toNat } →
      ∀ w : EntryWrite, w = (if x.staging ≠ [] ∧ x.write = .noWrite ∧ x.isFull = false then .body else x.write) →
      ∀ e : Engine, e = { s.engine with listA := s.engine.listA ++ bodyRequests c x } →
      (∃ t, exec (.retire b head) s = .next t ∧ t = { s with cplQueues := t.cplQueues, engine := e } ∧
        (∀ d, d ≠ c → t.cq d = s.cq d) ∧ t.cq c = { x with write := w }) ∧
      (∃ t, exec (.retireArm b head) s = .next t ∧ t = { s with cplQueues := t.cplQueues, engine := e } ∧
        (∀ d, d ≠ c → t.cq d = s.cq d) ∧
        t.cq c =
          if x.threshold ≤ x.unretired then { x with write := w, notif := .asserted, timer := none }
          else if x.unretired = 0 then { x with write := w, notif := .armed, timer := none }
          else if x.delay = 0 then { x with write := w, notif := .asserted, timer := none }
          else { x with write := w, notif := .armed, timer := some x.delay })) ∧
    (((s.part ≠ .running ∧ s.part ≠ .stopping) ∨ 3 < b.toNat ∨ ∀ c : CqNo, b.toNat = c.val →
        (s.cq c).size.getD 0 ≤ head.toNat ∨
          (s.cq c).unretired < ringDist head.toNat (s.cq c).head ((s.cq c).size.getD 0)) →
      exec (.retire b head) s = .next { s with retireRejected := true } ∧
        exec (.retireArm b head) s = .next { s with retireRejected := true })

/-- R154. The count rises by 1 and wraps, and every running timer stated in ms or µs has one microsecond less left. -/
def Obligations.MicrosecondAdvancesTimers : Prop :=
  ∀ s : State, s.resetHeld = false → ∃ t, exec .microsecondCountRises s = .next t ∧
    t = { s with time := t.time, stopLimit := t.stopLimit, lines := t.lines, cplQueues := t.cplQueues } ∧
    t.time.toNat = (s.time.toNat + 1) % 2 ^ 32 ∧ t.stopLimit = s.stopLimit.map (· - 1) ∧
    (∀ i, t.line i = { s.line i with
      disc := { (s.line i).disc with timer := (s.line i).disc.timer.map (· - 1) }
      flow := { (s.line i).flow with timer := (s.line i).flow.timer.map (· - 1) }
      close := { (s.line i).close with drainTimer := (s.line i).close.drainTimer.map (· - 1) } }) ∧
    ∀ c, t.cq c = { s.cq c with timer := (s.cq c).timer.map (· - 1) }

/-! ### Control requests -/

/-- R159, R161, R115, R119, R112, R111. A delivered control record is accepted: the head of CTLQ advances, the fetch ends and
a progress write waits. A NOP is then answered OK, and an unassigned code BAD_REQUEST, with the line absent. FETCH_ENDS of
CTLQ takes the delivered record as the command of its code would; with the part not RUNNING or the queue empty the record
is discarded, the head stays, and the Control Unit is IDLE. An answer is a CONTROL_DONE for CMQ0 with the request's code,
tag and line; an IDLE Control Unit with an empty slot asks for the next record of CTLQ, in RUNNING, by one read of 32
bytes. That each request's own command takes the record is the model's choice (log entry 4). -/
def Obligations.AcceptedRequestAnswered : Prop :=
  (∀ (s : State) (r : List Byte), ControlDelivered s r → ∀ a : State, a = s.acceptControl →
    (a = { s with
             reqQueues := a.reqQueues, engine := a.engine, progressWaits := true
             control := { s.control with st := .idle, req := none } } ∧
      (∀ q, q ≠ 0 → a.rq q = s.rq q) ∧
      a.rq 0 = { s.rq 0 with
        head := if (s.rq 0).head + 1 = (s.rq 0).size.getD 0 then 0 else (s.rq 0).head + 1
        fetch := false } ∧
      a.engine = { s.engine with
        results := s.engine.results.eraseP fun x => x.requester = .fetch 0
        listA := if s.progressWaits then s.engine.listA
          else s.engine.listA ++ [{ requester := .progress, addr := s.progressAddr
                                    transfer := .write (progressBytes a.reqQueues) }] }) ∧
    ((reqCode r).toNat = 0 → exec .nop s =
      .next { a with control :=
        { st := .idle, req := none
          slot := some { dest := 0, time := s.time, body := .controlDone (reqCode r) none (reqTag r) .ok } } }) ∧
    (11 ≤ (reqCode r).toNat → exec .unassignedRequestCode s =
      .next { a with control :=
        { st := .idle, req := none
          slot := some
            { dest := 0, time := s.time, body := .controlDone (reqCode r) none (reqTag r) .badRequest } } })) ∧
  (∀ (s : State) (r : List Byte), ControlDelivered s r →
    exec (.fetchEnds 0) s = exec (requestCommand (reqCode r).toNat) s) ∧
  (∀ (s : State) (x : Result) (r : List Byte), s.resetHeld = false → (s.rq 0).fetch = true →
    s.result? (.fetch 0) = some x → x.data = some r → s.part ≠ .running ∨ (s.rq 0).head = (s.rq 0).tail →
    exec (.fetchEnds 0) s = .next ((s.dropResult (.fetch 0)).setRq 0 { s.rq 0 with fetch := false } |> fun t =>
      { t with control := { t.control with st := .idle, req := none } })) ∧
  (∀ (s : State) (r : List Byte) (st : Status) (line : Option LineNo),
    (∀ i : LineNo, line = some i ↔ (recByte r 1).toNat = i.val ∧ 2 ≤ (recByte r 0).toNat ∧ (recByte r 0).toNat ≤ 9) →
    s.answer r st = { s with control :=
      { st := .idle, req := none
        slot := some { dest := 0, time := s.time, body := .controlDone (recByte r 0) line (recHalf r 2) st } } }) ∧
  (∀ s : State, s.askCtl =
    if s.control.st = .idle ∧ s.control.slot = none ∧ s.part = .running ∧ (s.rq 0).head ≠ (s.rq 0).tail ∧
        (s.rq 0).halted = false ∧ (s.rq 0).fetch = false then
      { s.setRq 0 { s.rq 0 with fetch := true } with
        control := { s.control with st := .fetching }
        engine := { s.engine with
          listD := s.engine.listD ++
            [{ requester := .fetch 0, addr := (s.rq 0).base + BitVec.ofNat 32 (32 * (s.rq 0).head)
               transfer := .read 32 }] } }
    else s) ∧
  (∀ r : List Byte, reqCode r = recByte r 0 ∧ reqLine r = recByte r 1 ∧ reqTag r = recHalf r 2 ∧
    (∀ n, (recHalf r n).toNat = (recByte r n).toNat + 2 ^ 8 * (recByte r (n + 1)).toNat) ∧
    ∀ n, (recWord r n).toNat = (recByte r n).toNat + 2 ^ 8 * (recByte r (n + 1)).toNat +
      2 ^ 16 * (recByte r (n + 2)).toNat + 2 ^ 24 * (recByte r (n + 3)).toNat) ∧
  ∀ s : State, (progressBytes s.reqQueues).length = 34 ∧
    ∀ q : RqNo, recHalf (progressBytes s.reqQueues) (2 * q.val) = BitVec.ofNat 16 (s.rq q).head

/-- R163, R164, R165, R13. A fetch of a TXQ or RPQ that ends with a bus error halts that queue alone: its head stays, no
progress write is requested, and its line appends QUEUE_HALTED, or counts it lost with a full event list. A RESTART_QUEUE
is refused for a queue number above 16 and for a queue that is not halted; otherwise the halt clears, the head stays, and
the consumer fetches if its own conditions hold: a line by one class D read of 16 bytes at the head's slot for each of
its queues that it asks for; the Control Unit, whose answer waits in its slot, not at all. That the RPQ comes before the
TXQ is the model's choice (log entry 17). -/
def Obligations.FailedFetchHaltsUntilRestart : Prop :=
  (∀ (s : State) (i : LineNo) (q : RqNo) (x : Result) (l : Line), s.resetHeld = false → q = txq i ∨ q = rpq i →
    (s.rq q).fetch = true → s.result? (.fetch q) = some x → x.data = none → l = s.line i →
    ∃ t, exec (.fetchEnds q) s = .next t ∧
      LineTakes i ((s.dropResult (.fetch q)).setRq q { s.rq q with halted := true, fetch := false }) t
        (if l.events.length < 4 then
          { l with events := l.events ++
            [{ dest := l.set.boundCq, time := s.time, body := .queueHalted i q (s.rq q).head }] }
         else { l with counters := { l.counters with eventsLost := satInc l.counters.eventsLost } })) ∧
  ∀ (s : State) (r : List Byte), ControlDelivered s r → (reqCode r).toNat = 10 → ∀ a : State, a = s.acceptControl →
    (16 < (recByte r 4).toNat → exec .restartQueue s = .next (a.answer r .badParam)) ∧
    ∀ q : RqNo, (recByte r 4).toNat = q.val →
      ((a.rq q).halted = false → exec .restartQueue s = .next (a.answer r .queueState)) ∧
      ((a.rq q).halted = true → ∃ t, exec .restartQueue s = .next t ∧
        ∀ b : State, b = (a.answer r .ok).setRq q { a.rq q with halted := false } →
          (q = 0 → t = b) ∧
          ∀ i : LineNo, q = txq i ∨ q = rpq i → ∀ x y : ReqQueue, x = b.rq (rpq i) → y = b.rq (txq i) →
            t = { b with
              reqQueues := t.reqQueues
              engine := { a.engine with
                listD := a.engine.listD ++
                  (if (a.line i).asksRpq x = true then
                    [{ requester := .fetch (rpq i), addr := x.base + BitVec.ofNat 32 (16 * x.head)
                       transfer := .read 16 }] else []) ++
                  (if (a.line i).asksTxq y = true then
                    [{ requester := .fetch (txq i), addr := y.base + BitVec.ofNat 32 (16 * y.head)
                       transfer := .read 16 }] else []) } } ∧
            (∀ p, p ≠ rpq i → p ≠ txq i → t.rq p = b.rq p) ∧
            t.rq (rpq i) = { x with fetch := x.fetch || (a.line i).asksRpq x } ∧
            t.rq (txq i) = { y with fetch := y.fetch || (a.line i).asksTxq y })

/-- R112, R114, R116. A request that names a line, other than QUERY_LINE and CLOSE_LINE, is refused with BAD_PARAM for a line number above 7, with LINE_BUSY while
the line holds a pending long request, and with LINE_STATE in a state it does not allow, in this order. -/
def Obligations.LineRequestRefused : Prop :=
  ∀ (c : Instr) (code : Nat) (allowed : List LineState) (s : State) (r : List Byte),
    lineRequest c = some (code, allowed) → ControlDelivered s r → (reqCode r).toNat = code →
    (8 ≤ (reqLine r).toNat → exec c s = .next (s.acceptControl.answer r .badParam)) ∧
    ∀ i : LineNo, (reqLine r).toNat = i.val →
      ((s.line i).long ≠ .noRequest → exec c s = .next (s.acceptControl.answer r .lineBusy)) ∧
      ((s.line i).long = .noRequest → (s.line i).state ∉ allowed →
        exec c s = .next (s.acceptControl.answer r .lineState))

/-- R36. A SET_RATE_TABLE is refused at its first failing check, and otherwise held while its table is read. -/
def Obligations.SetRateTableChecked : Prop :=
  ∀ (s : State) (r : List Byte), ControlDelivered s r → (reqCode r).toNat = 1 → ∀ a : State, a = s.acceptControl →
    ∀ n : Nat, n = (recByte r 4).toNat → ∀ addr : Word, addr = recWord r 8 →
    if n = 0 ∨ 12 < n then exec .setRateTable s = .next (a.answer r .badParam)
    else if addr.toNat % 8 ≠ 0 then exec .setRateTable s = .next (a.answer r .badParam)
    else if ∃ i, (s.line i).state = .seek ∨ (s.line i).state = .trial then
      exec .setRateTable s = .next (a.answer r .tableInUse)
    else if rangeAllowed s.windows false addr (8 * n) = false then
      exec .setRateTable s = .next (a.answer r .addressFault)
    else exec .setRateTable s =
      .next { a with
                control := { st := .holding, req := some r, slot := s.control.slot }
                engine := { a.engine with
                  listD := a.engine.listD ++ [{ requester := .tableRead, addr := addr, transfer := .read (8 * n) }] } }

/-- R37. The table read that ends OK with entries in range and pairwise disjoint replaces the table; an entry out of range,
two entries that share a tick value and a failed read leave it, each answered with its status. -/
def Obligations.TableReadReplacesTheTable : Prop :=
  ∀ (s : State) (r : List Byte) (x : Result), s.resetHeld = false → s.control.st = .holding → s.control.req = some r →
    (reqCode r).toNat = 1 → s.result? .tableRead = some x →
    ∃ t, exec .tableReadEnds s = .next t ∧
      t = { s.dropResult .tableRead with control := t.control, rateTable := t.rateTable } ∧
      ∃ st, t.control = { st := .idle, req := none
                          slot := some { dest := 0, time := s.time, body := .controlDone (reqCode r) none (reqTag r) st } } ∧
        (x.data = none → st = .busError ∧ t.rateTable = s.rateTable) ∧
        ∀ bs, x.data = some bs → ∀ es : List RateEntry, es = (List.range (recByte r 4).toNat).map (fun k =>
            { divisor := (recHalf bs (8 * k)).toNat, min := (recHalf bs (8 * k + 4)).toNat
              max := (recHalf bs (8 * k + 6)).toNat }) →
          if ∃ e ∈ es, e.divisor < 32 ∨ e.min < 16 ∨ e.max < e.min then st = .badParam ∧ t.rateTable = s.rateTable
          else if ¬ es.Pairwise fun a b => a.max < b.min ∨ b.max < a.min then
            st = .tableOverlap ∧ t.rateTable = s.rateTable
          else st = .ok ∧ t.rateTable = es

/-- R120, R121, R122, R4, R40. An OPEN_LINE whose fields leave the ranges of R120 is refused with BAD_PARAM; one with
DISCOVER is refused with NO_RATE_TABLE while the table is empty, and then with TRIAL_AMBIGUOUS for an ambiguous trial
pair; every other one passes. A CLOSED line that takes one stores its settings, clears what R4 clears, and is OPEN with
FIXED and in SEEK with DISCOVER. -/
def Obligations.OpenLineOpens : Prop :=
  (∀ (r : List Byte) (tab : List RateEntry) (ranges : Prop), (ranges ↔
    (recByte r 4).toNat ≤ 1 ∧
    ((recByte r 4).toNat = 0 →
      5 ≤ (recByte r 5).toNat ∧ (recByte r 5).toNat ≤ 8 ∧ (recByte r 6).toNat ≤ 4 ∧
        ((recByte r 7).toNat = 1 ∨ (recByte r 7).toNat = 2) ∧ 32 ≤ (recHalf r 8).toNat ∧
        (recByte r 22).toNat < 0x80 ∧ (recByte r 23).toNat < 0x80) ∧
    4 ≤ (recByte r 24).toNat ∧ (recByte r 24).toNat ≤ 64 ∧
    ((recByte r 21).toNat = 1 ∨ (recByte r 21).toNat = 2) ∧ (recByte r 10).toNat ≤ 3 ∧ (recByte r 11).toNat ≤ 1 ∧
    recByte r 12 ≠ recByte r 13 ∧ (recByte r 14).toNat ≤ 30 ∧ (recByte r 14).toNat + 1 ≤ (recByte r 15).toNat ∧
    (recByte r 15).toNat ≤ 31 ∧ 2 ≤ (recByte r 19).toNat) →
    (¬ ranges → firstFailure (openChecks r tab) = some .badParam) ∧
    (ranges → (recByte r 4).toNat = 1 → tab = [] → firstFailure (openChecks r tab) = some .noRateTable) ∧
    (ranges → (recByte r 4).toNat = 1 → tab ≠ [] → unambiguous (recByte r 22) (recByte r 23) = false →
      firstFailure (openChecks r tab) = some .trialAmbiguous) ∧
    (ranges → ((recByte r 4).toNat = 1 → tab ≠ [] ∧ unambiguous (recByte r 22) (recByte r 23) = true) →
      firstFailure (openChecks r tab) = none)) ∧
  (∀ a b : Byte, unambiguous a b = true ↔
    a.toNat < 0x80 ∧ b.toNat < 0x80 ∧ (weight a + weight b) % 2 = 1) ∧
  ∀ (s : State) (r : List Byte) (i : LineNo), ControlDelivered s r → (reqCode r).toNat = 2 → (reqLine r).toNat = i.val →
    (s.line i).long = .noRequest → (s.line i).state = .closed →
    (∀ st, firstFailure (openChecks r s.rateTable) = some st →
      exec .openLine s = .next (s.acceptControl.answer r st)) ∧
    (firstFailure (openChecks r s.rateTable) = none → ∀ (cq : CqNo) (f : Frame), cq.val = (recByte r 10).toNat →
      (if (recByte r 4).toNat = 0 then
        f.dataBits = (recByte r 5).toNat ∧ (recByte r 6).toNat = (match f.parity with
          | .noParity => 0
          | .even => 1
          | .odd => 2
          | .mark => 3
          | .space => 4) ∧ f.stopBits = (recByte r 7).toNat
       else f = (s.line i).frame) →
      ∃ t, exec .openLine s = .next t ∧ LineTakes i (s.acceptControl.answer r .ok) t
        { s.line i with
            state := if (recByte r 4).toNat = 0 then .opened else .seek
            frame := f
            divisor := if (recByte r 4).toNat = 0 then (recHalf r 8).toNat else (s.line i).divisor
            rateIndex := none, flow := Flow.reset, counters := Counters.reset
            set :=
              { boundCq := cq
                flowMode := if (recByte r 11).toNat = 1 then .inband else .noFlow
                pauseValue := recByte r 12, resumeValue := recByte r 13
                lowMark := (recByte r 14).toNat, highMark := (recByte r 15).toNat
                pauseLimit := (recHalf r 16).toNat, gap := (recByte r 18).toNat
                breakLength := (recByte r 19).toNat
                closeOnError := (recByte r 20).getLsbD 0, keepTrial := (recByte r 20).getLsbD 1
                stopAfter := (recByte r 21).toNat, trial1 := recByte r 22, trial2 := recByte r 23
                seekWindow := (recByte r 24).toNat, attemptLimit := (recByte r 25).toNat
                discTimeout := (recHalf r 26).toNat }
            disc := { Discovery.reset with
              timer := if (recByte r 4).toNat = 0 ∨ (recHalf r 26).toNat = 0 then none
                       else some ((recHalf r 26).toNat * 1000) }
            rx := { (s.line i).rx with
              asm := if (recByte r 4).toNat = 0 then .hunt else .idle
              fifo := [], hold := [], delims := [], lossPending := false, lossCarried := false, gapArmed := false
              gapTimer := none } })

/-- R123, R124, R33, R103, R106. A MODIFY_LINE that passes its checks replaces the selected settings at once; a new gap or
pause limit of 0 stops its timer, and the flow logic makes both tests with the new marks. -/
def Obligations.ModifyLineReplacesSettings : Prop :=
  ∀ (s : State) (r : List Byte) (i : LineNo), ControlDelivered s r → (reqCode r).toNat = 3 → (reqLine r).toNat = i.val →
    (s.line i).long = .noRequest → inSession (s.line i).state = true → ∀ x : Settings,
    x = { (s.line i).set with
      gap := if recBit r 4 0 then (recByte r 5).toNat else (s.line i).set.gap
      highMark := if recBit r 4 1 then (recByte r 6).toNat else (s.line i).set.highMark
      lowMark := if recBit r 4 2 then (recByte r 7).toNat else (s.line i).set.lowMark
      closeOnError := if recBit r 4 3 then recBit r 8 0 else (s.line i).set.closeOnError
      pauseLimit := if recBit r 4 4 then (recHalf r 10).toNat else (s.line i).set.pauseLimit
      breakLength := if recBit r 4 5 then (recByte r 9).toNat else (s.line i).set.breakLength } →
    if (recBit r 4 2 = true ∧ 30 < x.lowMark) ∨
        ((recBit r 4 1 = true ∨ recBit r 4 2 = true) ∧ (x.highMark ≤ x.lowMark ∨ 31 < x.highMark)) ∨
        (recBit r 4 5 = true ∧ x.breakLength < 2) then
      exec .modifyLine s = .next (s.acceptControl.answer r .badParam)
    else ∃ t l, exec .modifyLine s = .next t ∧ LineTakes i (s.acceptControl.answer r .ok) t l ∧
      ∀ l1 : Line, l1 = { s.line i with
        set := x
        rx := { (s.line i).rx with
          gapTimer := if recBit r 4 0 = true ∧ (recByte r 5).toNat = 0 then none else (s.line i).rx.gapTimer }
        flow := { (s.line i).flow with
          timer := if recBit r 4 4 = true ∧ (recHalf r 10).toNat = 0 then none else (s.line i).flow.timer } } →
        l = if x.highMark ≤ l1.rx.fifo.length then l1.flowRise else l1.flowFall

/-- R66, R67. A SET_DELIMITERS is refused at its first failing check; a line that takes one stores the match hold as data
and replaces the table by the slots below the count. -/
def Obligations.SetDelimitersReplacesTheTable : Prop :=
  ∀ (s : State) (r : List Byte) (i : LineNo), ControlDelivered s r → (reqCode r).toNat = 4 → (reqLine r).toNat = i.val →
    (s.line i).long = .noRequest → inSession (s.line i).state = true → ∀ n : Nat, n = (recByte r 4).toNat →
    ∀ slot : Nat → List Byte, (∀ k, slot k =
      (List.range (recByte r (8 + 6 * k)).toNat).map fun j => recByte r (8 + 6 * k + 2 + j)) →
    if 4 < n then exec .setDelimiters s = .next (s.acceptControl.answer r .badParam)
    else if ∃ k < n, (recByte r (8 + 6 * k)).toNat < 1 ∨ 4 < (recByte r (8 + 6 * k)).toNat then
      exec .setDelimiters s = .next (s.acceptControl.answer r .badParam)
    else if ∃ k < n, 2 < (recByte r (8 + 6 * k + 1)).toNat then
      exec .setDelimiters s = .next (s.acceptControl.answer r .badParam)
    else if ∃ j < n, ∃ k < n, j ≠ k ∧ slot j <+: slot k then
      exec .setDelimiters s = .next (s.acceptControl.answer r .delimiterConflict)
    else ∃ t l, exec .setDelimiters s = .next t ∧ LineTakes i (s.acceptControl.answer r .ok) t l ∧
      l = { (s.line i).releaseHold with rx := { (s.line i).releaseHold.rx with delims := l.rx.delims } } ∧
      l.rx.hold = [] ∧ l.rx.delims.length = n ∧
      ∀ k (h : k < l.rx.delims.length), l.rx.delims[k].bytes = slot k ∧
        (recByte r (8 + 6 * k + 1)).toNat = (match l.rx.delims[k].action with
          | .keepAndClose => 0
          | .dropAndClose => 1
          | .drop => 2)

/-- R125, R126, R76, R108. A REDISCOVER is refused while the transmitter is busy, while a flow character is on the output,
without a rate table and with an ambiguous trial pair, in this order; a line that takes one discards its FIFO and its hold,
closes a started buffer with RATE_CHANGE, starts a RESUME it owes, and enters SEEK with fresh progress. -/
def Obligations.RediscoverEntersSeek : Prop :=
  ∀ (s : State) (r : List Byte) (i : LineNo), ControlDelivered s r → (reqCode r).toNat = 5 → (reqLine r).toNat = i.val →
    (s.line i).long = .noRequest → (s.line i).state = .opened →
    if (s.line i).tx.st ≠ .idle then exec .rediscover s = .next (s.acceptControl.answer r .lineBusy)
    else if (s.line i).flowOnOutput = true then exec .rediscover s = .next (s.acceptControl.answer r .lineBusy)
    else if s.rateTable = [] then exec .rediscover s = .next (s.acceptControl.answer r .noRateTable)
    else if unambiguous (s.line i).set.trial1 (s.line i).set.trial2 = false then
      exec .rediscover s = .next (s.acceptControl.answer r .trialAmbiguous)
    else ∃ t l l1, exec .rediscover s = .next t ∧ LineTakes i (s.acceptControl.answer r .ok) t l ∧
      l1 = (({ (s.line i).discardFifo with rx := { (s.line i).discardFifo.rx with hold := [] } }).closeBuffer i s.time
        .rateChange none).flowFall.chooseOutput ∧
      l = { l1 with
        state := .seek, rateIndex := none
        rx := { l1.rx with asm := .idle, gapTimer := none }
        flow := { l1.flow with peerPaused := false, timer := none }
        disc := { Discovery.reset with
          timer := if (s.line i).set.discTimeout = 0 then none else some ((s.line i).set.discTimeout * 1000) } }

/-- R127, R75, R29, R101, R92, R117, R128. A FLUSH_RX discards the receive FIFO as a whole and counts its entries,
closes a started buffer with FLUSHED after storing its held bytes, and makes the falling test; with an empty FIFO and
no started buffer the line keeps every field, or every field but the flags that R29 and R62 clear: the rules disagree
there, and which it is is a free value (log entry 30). A line that takes a FLUSH_TX holds its tag, records the TXQ tail
as its boundary, and ends its current record with ABORTED at once, or after the data character on the output; the
Control Unit answers nothing and goes on. That the transmit FIFO is then emptied at the taking is the model's choice (log
entry 32). Of a record that a failed read is already ending, whether BUS_ERROR or ABORTED comes out is a free value (log
entry 6). -/
def Obligations.FlushesBegin : Prop :=
  (∀ (s : State) (r : List Byte) (i : LineNo), ControlDelivered s r → (reqCode r).toNat = 7 → (reqLine r).toNat = i.val →
    (s.line i).long = .noRequest → (s.line i).state = .opened →
    ∃ t l l0, exec .flushRx s = .next t ∧ LineTakes i (s.acceptControl.answer r .ok) t l ∧
      l0 = { s.line i with
        rx := { (s.line i).rx with fifo := [], lossPending := false, gapArmed := false, lossCarried := false }
        counters := { (s.line i).counters with
          flushedEntries :=
            BitVec.ofNat 32 (min ((s.line i).counters.flushedEntries.toNat + (s.line i).rx.fifo.length) 4294967295) } } ∧
      l = if (s.line i).rx.fifo = [] ∧ (s.line i).hasStarted = false then
          (if Config.emptyFlushClears i s.time = true then l0 else s.line i)
        else if (s.line i).hasStarted then (l0.releaseHold.closeBuffer i s.time .flushed none).flowFall else l0.flowFall) ∧
  ∀ (s : State) (r : List Byte) (i : LineNo), ControlDelivered s r → (reqCode r).toNat = 6 → (reqLine r).toNat = i.val →
    (s.line i).long = .noRequest → inSession (s.line i).state = true →
    ∃ u l l0, exec .flushTx s = .next u.askCtl ∧ LineTakes i s.acceptControl u l ∧
      l0 = { s.line i with
        long := .flushTx (reqTag r)
        tx := { (s.line i).tx with
          flushBoundary := some (s.rq (txq i)).tail, flushPhase := some .ending, flushDue := none } } ∧
      (l0.tx.cur = none → l = l0) ∧
      (∀ cur bits, l0.tx.cur = some cur → l0.tx.output = .data bits →
        l = { l0 with tx := { l0.tx with ending := some (endingStatus i s.time l0.tx.ending .aborted), fifo := [] } }) ∧
      ∀ cur, l0.tx.cur = some cur → (∀ bits, l0.tx.output ≠ .data bits) →
        l = { l0 with tx := { l0.tx with
          st := .idle, cur := none, ending := none, fifo := []
          output := if l0.tx.output = .brk then .mark else l0.tx.output
          breakTimer := if l0.tx.output = .brk then none else l0.tx.breakTimer
          slot := some { dest := (s.line i).set.boundCq, time := s.time
                         body := .txDone i cur.record.tag cur.bytesSent .aborted } } }

/-- R129, R5, R10, R8. A CLOSE_LINE follows the rows of R129 in order. Taken in SEEK, TRIAL or OPEN, the line enters
CLOSING and holds the tag: GRACEFUL records the drain boundary and starts the drain limit, IMMEDIATE carries out the
aborts. An IMMEDIATE over a single GRACEFUL tag holds both tags and cuts a drain short. That a discovery in progress
takes the values of R1, the attempts failed among them, is the model's choice (log entry 18). -/
def Obligations.CloseLineFollowsItsRows : Prop :=
  ∀ (s : State) (r : List Byte), ControlDelivered s r → (reqCode r).toNat = 8 → ∀ a : State, a = s.acceptControl →
    (8 ≤ (reqLine r).toNat → exec .closeLine s = .next (a.answer r .badParam)) ∧
    ∀ i : LineNo, (reqLine r).toNat = i.val → ∀ l : Line, l = s.line i →
      ∀ l0 : Line, l0 = { l with
        disc := Discovery.reset, rx := { l.rx with asm := .idle, gapTimer := none }, state := .closing } →
      if 1 < (recByte r 4).toNat then exec .closeLine s = .next (a.answer r .badParam)
      else if l.long = .noRequest ∧ inSession l.state = true then ∃ u, exec .closeLine s = .next u.askCtl ∧
        LineTakes i a u
          (if (recByte r 4).toNat = 0 then
            { l0 with
                long := .closeLine .graceful (reqTag r)
                close := { mode := some .graceful, phase := some .drain, failure := none
                           drainTimer := if (recHalf r 6).toNat = 0 then none else some ((recHalf r 6).toNat * 1000)
                           boundary := some (s.rq (txq i)).tail, txDone := decide (l.state ≠ .opened) } }
           else
            Line.abort
              { l0 with
                  long := .closeLine .immediate (reqTag r)
                  close := { CloseSide.reset with mode := some .immediate } } i s.time)
      else match l.long with
        | .closeLine .graceful g =>
          if (recByte r 4).toNat = 0 then exec .closeLine s = .next (a.answer r .lineBusy)
          else ∃ u, exec .closeLine s = .next u.askCtl ∧
            LineTakes i a u
              (if l.draining then
                Line.abort { l with long := .twoCloses g (reqTag r), close := { l.close with mode := some .immediate } }
                  i s.time
               else { l with long := .twoCloses g (reqTag r), close := { l.close with mode := some .immediate } })
        | .closeLine .immediate _ => exec .closeLine s = .next (a.answer r .lineBusy)
        | .twoCloses _ _ => exec .closeLine s = .next (a.answer r .lineBusy)
        | .flushTx _ => exec .closeLine s = .next (a.answer r (if l.state = .closing then .lineState else .lineBusy))
        | .noRequest => exec .closeLine s = .next (a.answer r .lineState)

/-- R131, R132, R133. A QUERY_LINE is refused for its line number, its alignment and its window, in this order;
otherwise the 64-byte report of the line as it stands, laid out as section 12.6 gives, is written in class D, and with
CLEAR set the counters are cleared after the snapshot. Its answer is placed when the write has ended. -/
def Obligations.QueryLineReports : Prop :=
  (∀ (s : State) (r : List Byte), ControlDelivered s r → (reqCode r).toNat = 9 → ∀ a : State, a = s.acceptControl →
    (8 ≤ (reqLine r).toNat → exec .queryLine s = .next (a.answer r .badParam)) ∧
    ∀ i : LineNo, (reqLine r).toNat = i.val →
      if (recWord r 8).toNat % 8 ≠ 0 then exec .queryLine s = .next (a.answer r .badParam)
      else if rangeAllowed s.windows true (recWord r 8) 64 = false then
        exec .queryLine s = .next (a.answer r .addressFault)
      else ∃ t, exec .queryLine s = .next t ∧
        t = { a with
                lines := t.lines
                control := { st := .holding, req := some r, slot := s.control.slot }
                engine := { a.engine with
                  listD := a.engine.listD ++
                    [{ requester := .reportWrite, addr := recWord r 8, transfer := .write (s.line i).report }] } } ∧
        (∀ j, j ≠ i → t.line j = s.line j) ∧
        t.line i = { s.line i with
          counters := if recBit r 4 0 then Counters.reset else (s.line i).counters }) ∧
  (∀ l : Line, ReportLayout l l.report) ∧
  ∀ (s : State) (r : List Byte) (x : Result), s.resetHeld = false → s.control.st = .holding → s.control.req = some r →
    (reqCode r).toNat = 9 → s.result? .reportWrite = some x →
    exec .reportWriteEnds s = .next ((s.dropResult .reportWrite).answer r (if x.data = none then .busError else .ok))

/-! ### Receiving characters and discovery -/

/-- R18, R21. The bits of a character: a sampled frame gives its data bits, the first as bit 0, every bit above them 0; a
parity error exactly where its parity bit is not the one its parity kind requires; a framing error exactly where a stop bit
is space. A character that the transmitter sends in a frame is read back clean in the same frame. -/
def Obligations.FrameCarriesItsCharacter : Prop :=
  ∀ f : Frame, 5 ≤ f.dataBits → f.dataBits ≤ 8 →
    (∀ bits : List Bool, bits.length = f.bitCount → bits.head? = some false → true ∈ bits →
      ∃ c, f.receive bits = some c ∧
        (∀ k < 8, c.value.getLsbD k = if k < f.dataBits then bits.getD (1 + k) false else false) ∧
        (c.parityError = true ↔ match f.parity with
          | .noParity => False
          | .even => ((bits.drop 1).take (f.dataBits + 1)).count true % 2 = 1
          | .odd => ((bits.drop 1).take (f.dataBits + 1)).count true % 2 = 0
          | .mark => bits.getD (1 + f.dataBits) false = false
          | .space => bits.getD (1 + f.dataBits) false = true) ∧
        (c.framingError = true ↔ ∃ k, 1 + f.dataBits + f.parityBits ≤ k ∧ k < bits.length ∧ bits.getD k true = false)) ∧
    ∀ v : Byte, 1 ≤ f.stopBits →
      (f.wireBits v).length = f.bitCount ∧
      f.receive (f.wireBits v) = some { value := maskData f.dataBits v, parityError := false, framingError := false }

/-- R24, R25, R27, R28, R30, R104. A character that completes in OPEN restarts the gap timer. A clean PAUSE or RESUME of a
line with INBAND flow goes to the flow logic; any other character joins the FIFO, or is lost to a full one. -/
def Obligations.CharacterCompletesInOpen : Prop :=
  ∀ (s : State) (i : LineNo) (bits : List Bool) (c : Received), s.resetHeld = false → (s.line i).rx.asm = .frame →
    (s.line i).state = .opened → (s.line i).frame.receive bits = some c →
    ∃ t, exec (.characterCompletes i bits) s = .next t ∧ t.rxd[i] = lastLevel bits ∧ ∀ l : Line,
      l = { s.line i with
        rx := { (s.line i).rx with
          asm := .hunt
          gapTimer := if (s.line i).set.gap = 0 then (s.line i).rx.gapTimer
            else some ((s.line i).set.gap * ((s.line i).frame.bitCount * (s.line i).divisor)) } } →
      LineTakes i s t
        (if l.set.flowMode = .inband ∧ c.parityError = false ∧ c.framingError = false ∧ c.value = l.set.pauseValue then
          { l with flow := { l.flow with
            peerPaused := true
            timer := if l.set.pauseLimit = 0 then none else some (l.set.pauseLimit * 1000) } }
         else if l.set.flowMode = .inband ∧ c.parityError = false ∧ c.framingError = false ∧
            c.value = l.set.resumeValue then
          { l with flow := { l.flow with
            peerPaused := false
            timer := if l.flow.peerPaused then none else l.flow.timer } }
         else if 32 ≤ l.rx.fifo.length then
          { l with
            rx := { l.rx with lossPending := true }
            counters := { l.counters with overruns := satInc l.counters.overruns } }
         else Line.flowRise
          { l with
            rx := { l.rx with
              fifo := l.rx.fifo ++ [.char c.value c.parityError c.framingError l.rx.lossPending]
              lossPending := false, gapArmed := true }
            counters := { l.counters with
              rxChars := satInc l.counters.rxChars
              parityErrors := if c.parityError then satInc l.counters.parityErrors else l.counters.parityErrors
              framingErrors := if c.framingError then satInc l.counters.framingErrors else l.counters.framingErrors } })

/-- R45, R47, R48, R49, R34, R40. A character that completes in TRIAL with a framing error or with low seven bits that
are not the expected trial character's fails the attempt; the first one expected is held; the second one ends
discovery: the frame is inferred from bit 7 of the two values, the divisor is the candidate's, a kept pair joins the FIFO, and
RATE_FOUND is appended. That the attempts failed stay in the progress is the model's choice (log entry 18). -/
def Obligations.CharacterCompletesInTrial : Prop :=
  ∀ (s : State) (i : LineNo) (bits : List Bool) (c : Received), s.resetHeld = false → (s.line i).rx.asm = .frame →
    (s.line i).state = .trial → trialFrame.receive bits = some c → ∀ l : Line, l = s.line i →
    ∃ t l', exec (.characterCompletes i bits) s = .next t ∧ t.rxd[i] = lastLevel bits ∧ LineTakes i s t l' ∧
      (c.framingError = true ∨ c.value &&& 0x7F#8 ≠ (if l.disc.held = [] then l.set.trial1 else l.set.trial2) →
        l' = l.failAttempt i s.time) ∧
      (c.framingError = false → l.disc.held = [] → c.value &&& 0x7F#8 = l.set.trial1 →
        l' = { l with rx := { l.rx with asm := .hunt }, disc := { l.disc with held := [c.value] } }) ∧
      ∀ v1 rest, c.framingError = false → l.disc.held = v1 :: rest → c.value &&& 0x7F#8 = l.set.trial2 →
        ∀ (k : Nat) (e : RateEntry), l.disc.candidate = some k → s.rateTable[k]? = some e →
        ∀ even odd : Byte, (if weight l.set.trial1 % 2 = 0 then even = v1 ∧ odd = c.value else even = c.value ∧ odd = v1) →
        ∀ f : Frame, f.stopBits = l.set.stopAfter →
          (f.dataBits, f.parity) = (match even.getLsbD 7, odd.getLsbD 7 with
            | false, false => (8, .noParity)
            | true, true => (7, .mark)
            | false, true => (7, .even)
            | true, false => (7, .odd)) →
        ∀ l1 : Line, l1 = { l with
          state := .opened, divisor := e.divisor, rateIndex := some k, frame := f, flow := Flow.reset
          disc := { l.disc with
            intervals := 0, shortest := none, candidate := none, held := [], measuring := false, timer := none
            window := none }
          rx := { l.rx with
            asm := .hunt, fifo := [], lossPending := false, gapArmed := false, gapTimer := none } } →
          l' = (if l.set.keepTrial then
              (((l1.joinChar (maskData f.dataBits v1) false false).joinChar (maskData f.dataBits c.value) false
                false)).gapRestart
            else l1).appendEvent
              { dest := l.set.boundCq, time := s.time, body := .rateFound i k f e.divisor }

/-- R20, R22, R26, R30, R41, R45. A falling edge in HUNT begins a frame, and in SEEK a low interval; a start bit sampled at
mark returns the assembler to HUNT and counts nothing. A break that begins in OPEN stops the gap timer, counts, and joins
the FIFO as a marker or is lost to a full one; in TRIAL it fails the attempt. A break that ends returns the assembler to
HUNT and restarts the gap timer. -/
def Obligations.AssemblerFollowsTheInput : Prop :=
  ∀ (s : State) (i : LineNo) (l : Line), s.resetHeld = false → l = s.line i →
    (l.rx.asm = .frame → l.state = .opened → ∃ t, exec (.breakBegins i) s = .next t ∧ t.rxd[i] = .space ∧
      ∀ l1 : Line, l1 = { l with
        rx := { l.rx with asm := .brk, gapTimer := none }
        counters := { l.counters with breaks := satInc l.counters.breaks } } →
        LineTakes i s t
          (if 32 ≤ l.rx.fifo.length then
            { l1 with
              rx := { l1.rx with lossPending := true }
              counters := { l1.counters with overruns := satInc l1.counters.overruns } }
           else Line.flowRise
            { l1 with rx := { l1.rx with
              fifo := l.rx.fifo ++ [.brk l.rx.lossPending], lossPending := false, gapArmed := false } })) ∧
    (l.rx.asm = .frame → l.state = .trial → ∃ t, exec (.breakBegins i) s = .next t ∧ t.rxd[i] = .space ∧
      LineTakes i s t (l.failAttempt i s.time)) ∧
    (l.rx.asm = .brk → l.state = .opened → exec (.breakEnds i) s = .next ((s.setRxd i .mark).setLine i { l with
      rx := { l.rx with
        asm := .hunt
        gapTimer := if l.set.gap = 0 then l.rx.gapTimer else some (l.set.gap * (l.frame.bitCount * l.divisor)) } })) ∧
    (l.rx.asm = .hunt → l.state ≠ .seek → exec (.fallingEdge i) s =
      .next ((s.setRxd i .space).setLine i { l with rx := { l.rx with asm := .frame } })) ∧
    (l.state = .seek → exec (.fallingEdge i) s =
      .next ((s.setRxd i .space).setLine i { l with disc := { l.disc with measuring := true } })) ∧
    (l.rx.asm = .frame → exec (.falseStart i) s =
      .next ((s.setRxd i .mark).setLine i { l with rx := { l.rx with asm := .hunt } }))

/-- R41, R42, R44. A low interval whose falling edge was seen in SEEK is ignored below 16 and above 65535 ticks, and
counted otherwise. The count that reaches the seek window evaluates it: the table entry whose range holds the shortest
interval becomes the candidate and the line enters TRIAL, and without one the attempt fails. -/
def Obligations.LowIntervalMeasures : Prop :=
  ∀ (s : State) (i : LineNo) (n : Nat) (l : Line), s.resetHeld = false → l = s.line i → l.state = .seek →
    (l.disc.measuring = false → exec (.lowInterval i n) s = .next (s.setRxd i .mark)) ∧
    (l.disc.measuring = true → ∃ t l', exec (.lowInterval i n) s = .next t ∧ t.rxd[i] = .mark ∧ LineTakes i s t l' ∧
      (n < 16 ∨ 65535 < n → l' = { l with disc := { l.disc with measuring := false } }) ∧
      (16 ≤ n → n ≤ 65535 → ∀ (m : Nat) (l1 : Line), m = min n (l.disc.shortest.getD n) →
        l1 = { l with disc := { l.disc with
          intervals := l.disc.intervals + 1, shortest := some m, measuring := false } } →
        (l.disc.intervals + 1 < l.set.seekWindow → l' = l1) ∧
        (l.set.seekWindow ≤ l.disc.intervals + 1 →
          ((∀ e ∈ s.rateTable, m < e.min ∨ e.max < m) → l' = l1.failAttempt i s.time) ∧
          ∀ k e, s.rateTable[k]? = some e → e.min ≤ m → m ≤ e.max →
            (∀ j e', j < k → s.rateTable[j]? = some e' → m < e'.min ∨ e'.max < m) →
            l' = { l1 with
              state := .trial
              rx := { l.rx with asm := .hunt }
              disc := { l1.disc with candidate := some k, held := [], window := some (200 * e.divisor) } })))

/-- R31, R46, R43, R50, R11. The gap timer's expiry takes gap armed and puts a GAP marker into a FIFO with room. The
trial window's expiry fails the attempt: the counts rise, and the line returns to SEEK with a fresh window, or makes a
discovery-failure close with reason ATTEMPTS at its attempt limit. The discovery timeout's expiry makes that close with
reason TIMEOUT. That a discovery-failure close leaves the discovery progress as it stands is the model's choice (log
entry 18). -/
def Obligations.ReceptionTimersExpire : Prop :=
  ∀ (s : State) (i : LineNo) (l : Line), s.resetHeld = false → l = s.line i →
    (l.state = .opened → l.rx.gapTimer ≠ none → ∃ t, exec (.gapTimerExpiry i) s = .next t ∧
      LineTakes i s t
        (if l.rx.gapArmed = true ∧ l.rx.fifo.length < 32 then Line.flowRise { l with rx := { l.rx with
            gapTimer := none, gapArmed := false, fifo := l.rx.fifo ++ [.gap l.rx.lossPending], lossPending := false } }
         else { l with rx := { l.rx with gapTimer := none, gapArmed := false } })) ∧
    (l.state = .trial → l.disc.window ≠ none → ∃ t, exec (.trialWindowExpiry i) s = .next t ∧
      ∀ (n : Nat) (l1 : Line), n = min (l.disc.attempts + 1) 255 →
        l1 = { l with
          rx := { l.rx with asm := .idle }
          disc := { l.disc with attempts := n, held := [], window := none, measuring := false }
          counters := { l.counters with trialsFailed := satInc l.counters.trialsFailed } } →
        LineTakes i s t
          (if l.set.attemptLimit ≠ 0 ∧ n = l.set.attemptLimit then
            Line.abort
              { l1 with
                state := .closing
                close := { l.close with mode := some .immediate, failure := some (.attempts, n) } } i s.time
           else { l1 with
            state := .seek
            disc := { l1.disc with intervals := 0, shortest := none, candidate := none } })) ∧
    (l.state = .seek ∨ l.state = .trial → l.disc.timer ≠ none →
      ∃ t, exec (.discoveryTimeoutExpiry i) s = .next t ∧
        LineTakes i s t (Line.abort
          { l with
            state := .closing
            close := { l.close with mode := some .immediate, failure := some (.timeout, l.disc.attempts) } } i s.time))

/-! ### The transmitter -/

/-- R84, R86, R89, R90, R92, R96. A data character that has been sent counts as a byte sent and in tx_chars. A record with
bytes left goes on; the last byte enters TX_BREAK with BREAK_AFTER set and ends the record OK otherwise; a record that a
flush, an abort or a failed read has ended takes that status. An ended record leaves the transmitter idle with an empty
FIFO, and a TX_DONE unless it is QUIET and OK. -/
def Obligations.DataCharacterEndsItsRecord : Prop :=
  ∀ (s : State) (i : LineNo) (l : Line) (bits : List Bool) (c : TxCurrent), s.resetHeld = false → l = s.line i →
    l.tx.output = .data bits → l.tx.cur = some c →
    ∃ t l', exec (.dataCharacterSent i) s = .next t ∧ LineTakes i s t l' ∧
      ∀ l1 : Line, l1 = { l with
        tx := { l.tx with output := .mark, cur := some { c with bytesSent := c.bytesSent + 1 } }
        counters := { l.counters with txChars := satInc l.counters.txChars } } →
      ∀ ended : Status → Line, (∀ st, ended st = { l1 with tx := { l1.tx with
        st := .idle, cur := none, ending := none, fifo := []
        slot := if c.record.quiet = true ∧ st = .ok then l.tx.slot
                else some { dest := l.set.boundCq, time := s.time
                            body := .txDone i c.record.tag (c.bytesSent + 1) st } } }) →
      match l.tx.ending with
      | some st => l' = ended st
      | none =>
        if c.bytesSent + 1 ≠ c.record.len then l' = l1
        else if c.record.breakAfter = true then
          l' = { l1 with tx := { l1.tx with
            st := .brk, output := .brk
            breakTimer := some (l.set.breakLength * (l.frame.bitCount * l.divisor)) } }
        else l' = ended .ok

/-- R88, R89, R96, R105, R13. A flow character that has been sent leaves the output at mark, and ends a record that an
abort left waiting. The break timer's expiry returns the output to mark and ends the record OK. The pause limit's expiry
ends the peer's pause and appends PAUSE_EXPIRED, or counts it lost with a full event list. -/
def Obligations.OutputAndPauseEnd : Prop :=
  ∀ (s : State) (i : LineNo) (l : Line), s.resetHeld = false → l = s.line i →
    (∀ ch bits, l.tx.output = .flow ch bits → ∃ t, exec (.flowCharacterEnds i) s = .next t ∧
      LineTakes i s t (match l.tx.ending with
        | some st => Line.endRecord { l with tx := { l.tx with output := .mark } } i s.time st
        | none => { l with tx := { l.tx with output := .mark } })) ∧
    (∀ c, l.tx.st = .brk → l.tx.breakTimer ≠ none → l.tx.cur = some c →
      ∃ t, exec (.breakTimerExpiry i) s = .next t ∧
        LineTakes i s t { l with tx := { l.tx with
          st := .idle, output := .mark, cur := none, ending := none, fifo := [], breakTimer := none
          slot := if c.record.quiet then l.tx.slot
                  else some { dest := l.set.boundCq, time := s.time
                              body := .txDone i c.record.tag c.bytesSent .ok } } }) ∧
    (l.flow.timer ≠ none → ∃ t, exec (.pauseLimitExpiry i) s = .next t ∧
      ∀ l1 : Line, l1 = { l with flow := { l.flow with peerPaused := false, timer := none } } →
        LineTakes i s t
          (if l.events.length < 4 then
            { l1 with events := l.events ++
              [{ dest := l.set.boundCq, time := s.time, body := .pauseExpired i }] }
           else { l1 with counters := { l.counters with eventsLost := satInc l.counters.eventsLost } }))

/-- R7, R8, R96, R109, R29. The drain limit's expiry carries out the aborts, as an immediate close does: the flow character
in the slot and the held bytes are dropped, the FIFO is discarded and counted, stored bytes stay in the chunk, and the
current record ends ABORTED: after the character on the output, and at once with the output at mark or at break. The close
mode is kept. That the transmit FIFO is emptied at the taking is the model's choice (log entry 32). Of a record that a failed read is already ending, whether BUS_ERROR or ABORTED comes out is a free value (log
entry 6). -/
def Obligations.DrainLimitCarriesOutTheAborts : Prop :=
  ∀ (s : State) (i : LineNo) (l : Line), s.resetHeld = false → l = s.line i → l.draining = true →
    l.close.drainTimer ≠ none →
    ∃ t l', exec (.drainLimitExpiry i) s = .next t ∧ LineTakes i s t l' ∧ ∀ l1 : Line,
      l1 = { l with
        flow := { l.flow with slot := none, timer := none }
        rx := { l.rx with
          asm := .idle, fifo := [], hold := [], lossPending := false, lossCarried := false, gapArmed := false
          gapTimer := none }
        disc := { l.disc with timer := none, window := none, measuring := false }
        counters := { l.counters with
          flushedEntries := BitVec.ofNat 32 (min (l.counters.flushedEntries.toNat + l.rx.fifo.length) 4294967295) }
        tx := { l.tx with flushBoundary := none, flushPhase := none, flushDue := none }
        close := { l.close with phase := some .aborting, drainTimer := none } } →
      (l.tx.cur = none → l' = l1) ∧
      ∀ c, l.tx.cur = some c →
        (match l.tx.output with
         | .data _ => l' = { l1 with tx := { l1.tx with
            ending := some (endingStatus i s.time l.tx.ending .aborted), fifo := [] } }
         | .flow _ _ => l' = { l1 with tx := { l1.tx with
            ending := some (endingStatus i s.time l.tx.ending .aborted), fifo := [] } }
         | .brk => l' = Line.endRecord { l1 with tx := { l1.tx with output := .mark, breakTimer := none } } i s.time .aborted
         | .mark => l' = l1.endRecord i s.time .aborted)

/-- R83, R84. The bytes of a data read that ended OK join the transmit FIFO of a record still current; a failed read
ends the record with BUS_ERROR, after the data character on the output; the data of a record that has ended are
discarded. That a read which fails after a flush or an abort has begun to end the record changes nothing is the model's
choice (log entry 6). -/
def Obligations.DataReadFillsTheFifo : Prop :=
  ∀ (s : State) (i : LineNo) (l : Line) (n : Nat) (x : Result), s.resetHeld = false → l = s.line i →
    l.tx.readInFlight = some n → s.result? (.dataRead i) = some x →
    ∃ t l', exec (.dataReadEnds i) s = .next t ∧ LineTakes i (s.dropResult (.dataRead i)) t l' ∧ ∀ l1 : Line,
      l1 = { l with tx := { l.tx with readInFlight := none } } →
      (l.tx.cur = none ∨ l.tx.ending ≠ none → l' = l1) ∧
      ∀ c, l.tx.cur = some c → l.tx.ending = none →
        (∀ bs, x.data = some bs → l' = { l1 with tx := { l1.tx with
          fifo := l.tx.fifo ++ bs, cur := some { c with bytesRead := c.bytesRead + bs.length } } }) ∧
        (x.data = none → (∃ bits, l.tx.output = .data bits) →
          l' = { l1 with tx := { l1.tx with ending := some .busError, fifo := [] } }) ∧
        (x.data = none → (∀ bits, l.tx.output ≠ .data bits) → l' = l1.endRecord i s.time .busError)

/-! ### The Memory Engine and the fetches -/

/-- R161, R170, R171, R172, R173, R177, R191. With no access in progress and no soft reset waiting, in LOADING, RUNNING
and STOPPING, a grant takes the oldest request of class A, or else the next in turn of class B, then C, then D, and its
access begins; a progress write carries the heads as they stand. In every other case nothing is granted. That the
all-zero progress write leaves the two progress fields alone is the model's choice (log entry 25). -/
def Obligations.AccessGrantTakesTurns : Prop :=
  ∀ s : State, s.resetHeld = false →
    (s.engine.access ≠ none ∨ s.softPending = true ∨ s.part = .stopped ∨ s.part = .faulted ∨
        (s.engine.listA = [] ∧ s.engine.listB = [] ∧ s.engine.listC = [] ∧ s.engine.listD = []) →
      exec .accessGrant s = .next s) ∧
    (s.engine.access = none → s.softPending = false → s.part = .loading ∨ s.part = .running ∨ s.part = .stopping →
      ∀ g : Request → Engine → State,
        (∀ r e, g r e = { s with
          progressWaits := s.progressWaits && decide (r.requester ≠ .progress)
          progressActive := s.progressActive || decide (r.requester = .progress)
          engine := { e with
            access := some
              { request :=
                  if r.requester = .progress then { r with transfer := .write (progressBytes s.reqQueues) } else r
                began := s.time, deliver := true } } }) →
      (∀ r rest, s.engine.listA = r :: rest → exec .accessGrant s = .next (g r { s.engine with listA := rest })) ∧
      (s.engine.listA = [] → ∀ r, NextInTurn s.engine.lastB s.engine.listB r → exec .accessGrant s =
        .next (g r { s.engine with listB := s.engine.listB.erase r, lastB := r.requester.member })) ∧
      (s.engine.listA = [] → s.engine.listB = [] → ∀ r, NextInTurn s.engine.lastC s.engine.listC r →
        exec .accessGrant s =
          .next (g r { s.engine with listC := s.engine.listC.erase r, lastC := r.requester.member })) ∧
      (s.engine.listA = [] → s.engine.listB = [] → s.engine.listC = [] →
        ∀ r, NextInTurn s.engine.lastD s.engine.listD r → exec .accessGrant s =
          .next (g r { s.engine with listD := s.engine.listD.erase r, lastD := r.requester.member })) ∧
      ∀ (last : Member) (rs : List Request), rs ≠ [] → ∃ r, NextInTurn last rs r)

/-- R173, R177, R184, R187, R191. An access ends OK with a normal response for its whole transfer, and with a bus error
after an error response or its timeout. The Engine is free and the result is reported to the requester, unless the
access was let end or a soft reset waits. A write that ended OK is in memory; of a failed one each byte has landed or
not, as a free value says (log entry 1); nothing outside its range changes. An abandoned LOADING and an expired stop
then enter STOPPED. A response that comes late, for an access that has ended, is matched to no access and changes
nothing; that such a response is an operand of its own is the model's choice (log entry 31). -/
def Obligations.AccessEndsWithItsResult : Prop :=
  (∀ s : State, exec (.busResponse .late) s = .next s) ∧
  ∀ (s : State) (a : Access) (c : Instr) (data : Option (List Byte)), s.resetHeld = false → s.engine.access = some a →
    (c = .accessTimeout ∧ data = none) ∨ (c = .busResponse .error ∧ data = none) ∨
      (∃ n bs, a.request.transfer = .read n ∧ bs.length = n ∧ c = .busResponse (.normal bs) ∧ data = some bs) ∨
      (∃ ws bs, a.request.transfer = .write ws ∧ c = .busResponse (.normal bs) ∧ data = some []) →
    ∃ u, exec c s =
        .next (if s.loadAbandoned then u.failLoading else if s.stopExpired then u.enterStopped else u) ∧
      u = { s with
        mem := u.mem, freeNext := u.freeNext
        engine := { s.engine with
          access := none
          results := if a.deliver = true ∧ s.softPending = false
            then s.engine.results ++ [{ requester := a.request.requester, addr := a.request.addr, data := data }]
            else s.engine.results } } ∧
      (∀ n, a.request.transfer = .read n → u.mem = s.mem ∧ u.freeNext = s.freeNext) ∧
      ∀ ws, a.request.transfer = .write ws →
        SameMemoryOutside a.request.addr.toNat ws.length s u ∧
        (data ≠ none → u.freeNext = s.freeNext ∧
          ∀ k (h : k < ws.length), memRead u.mem (a.request.addr.toNat + k) = some ws[k]) ∧
        (data = none → PartlyWritten a.request.addr.toNat ws s u)

/-- R54, R55, R159. A receive post record delivered to a line that accepts it joins the back of the buffer list: invalid
with BAD_RECORD for length 0, invalid with ADDRESS_FAULT without a WRITE window around its range, waiting otherwise; the
RPQ head advances. A line that accepts none, or an empty RPQ, leaves the record to the queue. -/
def Obligations.ReceivePostAccepted : Prop :=
  ∀ (s : State) (i : LineNo) (x : Result) (r : List Byte), s.resetHeld = false → (s.rq (rpq i)).fetch = true →
    s.result? (.fetch (rpq i)) = some x → x.data = some r → ∀ l : Line, l = s.line i → ∀ b : State,
    b = (s.dropResult (.fetch (rpq i))).setRq (rpq i) { s.rq (rpq i) with fetch := false } →
    ∃ t, exec (.fetchEnds (rpq i)) s = .next t ∧
      if (s.rq (rpq i)).head ≠ (s.rq (rpq i)).tail ∧
          (l.state = .seek ∨ l.state = .trial ∨ l.state = .opened ∨ l.draining = true) then
        LineTakes i (b.advanceHead (rpq i)) t
          { l with rx := { l.rx with bufs := l.rx.bufs ++ [
            { addr := recWord r 0, len := (recHalf r 4).toNat, tag := recHalf r 6
              cond := if (recHalf r 4).toNat = 0 then .invalid .badRecord
                else if rangeAllowed s.windows true (recWord r 0) (recHalf r 4).toNat then .waiting
                else .invalid .addressFault }] } }
      else LineTakes i b t l

/-- R79, R80, R93, R159. A transmit record delivered in the ordinary way becomes the current record and the transmitter is
TX_SENDING, or is answered BAD_RECORD for length 0 and ADDRESS_FAULT without a READ window around its range; one delivered
to a flush is answered FLUSHED; the TXQ head advances. Any other record, or an empty TXQ, is left to the queue. That a
record posted after the flush into a withdrawn slot is answered FLUSHED as well is the model's choice (log entry 33). -/
def Obligations.TransmitRecordAccepted : Prop :=
  ∀ (s : State) (i : LineNo) (x : Result) (r : List Byte), s.resetHeld = false → (s.rq (txq i)).fetch = true →
    s.result? (.fetch (txq i)) = some x → x.data = some r → ∀ l : Line, l = s.line i → ∀ b : State,
    b = (s.dropResult (.fetch (txq i))).setRq (txq i) { s.rq (txq i) with fetch := false } →
    ∀ answered : Status → Line, (∀ st, answered st = { l with tx := { l.tx with
      slot := some { dest := l.set.boundCq, time := s.time, body := .txDone i (recHalf r 6) 0 st } } }) →
    ∃ t, exec (.fetchEnds (txq i)) s = .next t ∧
      if (s.rq (txq i)).head = (s.rq (txq i)).tail then LineTakes i b t l
      else if l.long.isFlush = true ∧ (l.state = .seek ∨ l.state = .trial ∨ l.state = .opened) then
        LineTakes i (b.advanceHead (txq i)) t (answered .flushed)
      else if (l.state = .opened ∧ l.long.isFlush = false) ∨
          (l.draining = true ∧ l.close.txDone = false ∧ l.close.boundary ≠ some (s.rq (txq i)).head) then
        LineTakes i (b.advanceHead (txq i)) t
          (if (recHalf r 4).toNat = 0 then answered .badRecord
           else if rangeAllowed s.windows false (recWord r 0) (recHalf r 4).toNat then
            { l with tx := { l.tx with
              st := .sending, fifo := []
              cur := some
                { record := { addr := recWord r 0, len := (recHalf r 4).toNat, tag := recHalf r 6
                              quiet := (recByte r 8).getLsbD 0, breakAfter := (recByte r 8).getLsbD 1 }
                  bytesRead := 0, bytesSent := 0 } } }
           else answered .addressFault)
      else LineTakes i b t l

/-- R188, R111, R137, R151, R162, R166, R183. The failure of a CTLQ fetch, of an entry's body or head word, of a
progress write and of the all-zero progress write faults the part: the cause and FAULT_ADDR name the failed access,
NOTIFY.FAULT is set, every waiting request and every staged or waiting completion is discarded, and every line and the
Control Unit take their reset values; rings, windows and the rate table are kept. That the Engine keeps its last
granted members is the model's choice (log entry 24). -/
def Obligations.FailedAccessFaultsThePart : Prop :=
  ∀ (c : Instr) (w : Requester) (cause : Cause) (s : State) (x : Result), fatalAccess c = some (w, cause) →
    s.resetHeld = false → s.awaits w = true → s.result? w = some x → x.data = none →
    exec c s = .next { s with
      part := .faulted, cause := cause, faultAddr := x.addr, notifyFault := true, stopLimit := none
      stopExpired := false, loadAbandoned := false, progressWaits := false, progressActive := false
      lines := Vector.replicate 8 Line.reset, control := ControlUnit.reset
      reqQueues := s.reqQueues.map fun q => { q with fetch := false }
      cplQueues := s.cplQueues.map fun q => { q with staging := [], waiting := [], write := .noWrite, timer := none }
      engine := { s.engine with
        access := s.engine.access.map fun a => { a with deliver := false }
        listA := [], listB := [], listC := [], listD := [], results := [] } }

/-! ### Loading -/

/-- R182. A Setup Record is valid exactly when every used window has a length and a base that are multiples of 16 and
does not wrap, every request ring has a size that is a power of two from 4 to 1024, an aligned base and a READ window
around it, every completion ring has such a size, an aligned base that does not wrap and a threshold of at least 1, and
the progress block is aligned and does not wrap. Otherwise the offset given is that of the first field, in the order of
R182's table, that fails its check. -/
def Obligations.SetupRecordValidity : Prop :=
  ∀ r : List Byte,
    (setupFailureAt r = none ↔ (∀ n < 8, WindowPasses r n) ∧ (∀ q, RequestRingPasses r q) ∧
      (∀ c, CompletionRingPasses r c) ∧ ProgressPasses r) ∧
    (∀ n < 8, (∀ m < n, WindowPasses r m) → ¬ WindowPasses r n → setupFailureAt r = some
      (if (recWord r (12 * n + 4)).toNat % 16 ≠ 0 then 12 * n + 4
       else if (recWord r (12 * n)).toNat % 16 ≠ 0 then 12 * n
       else 12 * n + 4)) ∧
    ((∀ n < 8, WindowPasses r n) →
      (∀ q : RqNo, (∀ p < q, RequestRingPasses r p) → ¬ RequestRingPasses r q →
        (¬ RingSize (recHalf r (0x60 + 8 * q.val + 4)).toNat → setupFailureAt r = some (0x60 + 8 * q.val + 4)) ∧
        (RingSize (recHalf r (0x60 + 8 * q.val + 4)).toNat → setupFailureAt r = some (0x60 + 8 * q.val))) ∧
      ((∀ q, RequestRingPasses r q) →
        (∀ c : CqNo, (∀ d < c, CompletionRingPasses r d) → ¬ CompletionRingPasses r c →
          (¬ RingSize (recHalf r (0xE8 + 8 * c.val + 4)).toNat → setupFailureAt r = some (0xE8 + 8 * c.val + 4)) ∧
          (RingSize (recHalf r (0xE8 + 8 * c.val + 4)).toNat → setupFailureAt r = some
            (if (recWord r (0xE8 + 8 * c.val)).toNat % 16 = 0 ∧
                (recWord r (0xE8 + 8 * c.val)).toNat + (recHalf r (0xE8 + 8 * c.val + 4)).toNat * 16 ≤ 2 ^ 32
              then 0x108 + c.val else 0xE8 + 8 * c.val))) ∧
        ((∀ c, CompletionRingPasses r c) → ¬ ProgressPasses r → setupFailureAt r = some 0x10C)))

/-- R181, R182, R183. A Setup Record read that failed, and a record that fails its validation, enter STOPPED with their
cause and address; a valid record is installed and the all-zero progress write requested, and when that has ended OK
the part is RUNNING. That a failed start-up leaves the thresholds, the delays and the progress address 0 and an unused
window's base 0 with no permission, and keeps the last granted members, and that the all-zero write leaves the two
progress fields alone, is the model's choice (log entries 12, 15, 24, 25). -/
def Obligations.LoadingEndsInRunning : Prop :=
  ∀ (s : State) (x : Result), s.resetHeld = false → s.part = .loading →
    (∀ failed : Cause → Word → State, (∀ c addr, failed c addr = { s with
        part := .stopped, cause := c, faultAddr := addr, loadAbandoned := false, windows := unusedWindows
        reqQueues := Vector.replicate 17 ReqQueue.reset, cplQueues := Vector.replicate 4 CplQueue.reset
        progressAddr := 0, progressWaits := false, progressActive := false, engine := s.engine.discardAll }) →
      s.result? .setupRead = some x →
      (x.data = none → exec .setupRecordReadEnds s = .next (failed .setupBusError s.setupAddr)) ∧
      (∀ r n, x.data = some r → setupFailureAt r = some n →
        exec .setupRecordReadEnds s = .next (failed .setupInvalid (s.setupAddr + BitVec.ofNat 32 n))) ∧
      ∀ r, x.data = some r → setupFailureAt r = none → ∃ t, exec .setupRecordReadEnds s = .next t ∧
        t = { s with
          windows := (List.range 8).map fun n =>
            { base := recWord r (12 * n), len := recWord r (12 * n + 4), read := recBit r (12 * n + 8) 0
              write := recBit r (12 * n + 8) 1 }
          progressAddr := recWord r 0x10C, reqQueues := t.reqQueues
          cplQueues := t.cplQueues
          engine := { s.engine with
            results := s.engine.results.eraseP fun y => y.requester = .setupRead
            listA := s.engine.listA ++ [{ requester := .zeroProgress, addr := recWord r 0x10C
                                          transfer := .write (List.replicate 34 0) }] } } ∧
        (∀ q : RqNo, t.rq q = { s.rq q with
          base := recWord r (0x60 + 8 * q.val), size := some (recHalf r (0x60 + 8 * q.val + 4)).toNat }) ∧
        ∀ c : CqNo, t.cq c = { s.cq c with
          base := recWord r (0xE8 + 8 * c.val), size := some (recHalf r (0xE8 + 8 * c.val + 4)).toNat
          delay := (recHalf r (0xE8 + 8 * c.val + 6)).toNat, threshold := (recByte r (0x108 + c.val)).toNat }) ∧
    (s.result? .zeroProgress = some x → x.data ≠ none →
      exec .zeroProgressWriteEnds s = .next { s.dropResult .zeroProgress with part := .running })

/-! ### The receive writer and the wind-up -/

/-- R68, R69, R70, R71, R72, R73, R63. Matching in a started buffer. The longest delimiter that ends the held bytes and the
character acts: it is kept and closes, is dropped and closes, or is dropped alone, and what stood before it is stored.
Without one, the longest proper prefix of a delimiter is held and the bytes before it are stored, and the buffer closes
FULL when stored and held bytes fill it. An errored character releases the hold, is stored as data with its flags, and
closes FULL, or ERROR with CLOSE_ON_ERROR. A loss releases the hold and joins OVERRUN. -/
def Obligations.MatcherFollowsItsTable : Prop :=
  ∀ (l : Line) (i : LineNo) (time : Word) (v : Byte) (b : RxBuf) (rest : List RxBuf) (n : Nat) (e : ErrorSet)
    (f : Option Nat), l.rx.bufs = b :: rest → b.cond = .started n e f → (∀ d ∈ l.rx.delims, d.bytes ≠ []) →
    ∀ w : List Byte, w = l.rx.hold ++ [v] →
    (∀ (k : Nat) (d : Delim), l.rx.delims[k]? = some d → d.bytes <:+ w →
      (∀ (j : Nat) (d' : Delim), l.rx.delims[j]? = some d' → d'.bytes = d.bytes → j = k) →
      (∀ d' ∈ l.rx.delims, d'.bytes <:+ w → d'.bytes.length ≤ d.bytes.length) →
      l.matchChar i time v = match d.action with
        | .keepAndClose => l.closing i time b rest n w e f .delimiter (some k)
        | .dropAndClose =>
          l.closing i time b rest n (w.take (w.length - d.bytes.length)) e f .delimiter (some k)
        | .drop => l.storing b rest n (w.take (w.length - d.bytes.length)) e f []) ∧
    ((∀ d ∈ l.rx.delims, ¬ d.bytes <:+ w) → ∀ h : List Byte, h <:+ w →
      (h = [] ∨ ∃ d ∈ l.rx.delims, h.length < d.bytes.length ∧ h <+: d.bytes) →
      (∀ h', h' <:+ w → (∃ d ∈ l.rx.delims, h'.length < d.bytes.length ∧ h' <+: d.bytes) → h'.length ≤ h.length) →
      l.matchChar i time v =
        if n + w.length = b.len then l.closing i time b rest n w e f .full none
        else l.storing b rest n (w.take (w.length - h.length)) e f h) ∧
    (∀ (pe fe : Bool) (x : ErrorSet × Option Nat),
      x = summaryWith e f { parity := pe, framing := fe, overrun := false } (n + l.rx.hold.length) →
      l.storeErrored i time v pe fe =
        if n + w.length = b.len then l.closing i time b rest n w x.1 x.2 .full none
        else if l.set.closeOnError then l.closing i time b rest n w x.1 x.2 .error none
        else l.storing b rest n w x.1 x.2 []) ∧
    ∀ x : ErrorSet × Option Nat,
      x = summaryWith e f { parity := false, framing := false, overrun := true } (n + l.rx.hold.length) →
      l.noteLoss true = l.storing b rest n l.rx.hold x.1 x.2 [] ∧ l.noteLoss false = l

/-- R58, R59, R64, R101. The writer takes a CHARACTER entry in OPEN or a drain, with an empty slot, a valid front record and
room in the chunk: the flow logic makes its falling test, a waiting record is started with the carried loss, the entry's
loss is noted, and the character is matched, or stored as an errored one. Otherwise the entry stays. -/
def Obligations.WriterTakesCharacters : Prop :=
  ∀ (s : State) (i : LineNo) (l : Line) (v : Byte) (pe fe loss : Bool) (es : List FifoEntry), s.resetHeld = false →
    l = s.line i → l.rx.fifo = .char v pe fe loss :: es →
    if (l.state = .opened ∨ l.draining = true) ∧ l.rx.slot = none ∧
        l.rx.bufs.head?.map RxBuf.isInvalid = some false ∧ ¬(l.rx.inFlight ≠ none ∧ 9 < l.rx.chunk.length) then
      ∃ t l1, exec (.takeCharacterEntry i) s = .next t ∧
        (∀ l0 : Line, l0 = Line.flowFall { l with rx := { l.rx with fifo := es } } →
          (∀ b rest n e f, l.rx.bufs = b :: rest → b.cond = .started n e f → l1 = l0) ∧
          ∀ b rest, l.rx.bufs = b :: rest → b.cond = .waiting → l1 = { l0 with rx := { l0.rx with
            bufs := { b with
              cond := .started 0 { parity := false, framing := false, overrun := l.rx.lossCarried }
                (if l.rx.lossCarried then some 0 else none) } :: rest
            lossCarried := false, hold := [], written := 0 } }) ∧
        LineTakes i s t
          (if pe = true ∨ fe = true then (l1.noteLoss loss).storeErrored i s.time v pe fe
           else (l1.noteLoss loss).matchChar i s.time v)
    else exec (.takeCharacterEntry i) s = .next s

/-- R60, R61, R58, R64. The writer takes a GAP or BREAK marker in OPEN or a drain, with an empty slot, no invalid front
record and room in the chunk. Taken with a started buffer it stores the held bytes, notes the marker's loss and closes
the buffer with GAP, which counts, or BREAK. Without one its loss is carried, and a BREAK appends BREAK_IDLE. Otherwise
the marker stays. -/
def Obligations.WriterTakesMarkers : Prop :=
  ∀ (s : State) (i : LineNo) (l : Line) (gap loss : Bool) (es : List FifoEntry) (c : Instr), s.resetHeld = false →
    l = s.line i → l.rx.fifo = (if gap then .gap loss else .brk loss) :: es →
    c = (if gap then .takeGapMarker i else .takeBreakMarker i) →
    if (l.state = .opened ∨ l.draining = true) ∧ l.rx.slot = none ∧
        l.rx.bufs.head?.map RxBuf.isInvalid ≠ some true ∧ ¬(l.rx.inFlight ≠ none ∧ 9 < l.rx.chunk.length) then
      ∃ t l', exec c s = .next t ∧ LineTakes i s t l' ∧
        ∀ l0 : Line, l0 = Line.flowFall { l with rx := { l.rx with fifo := es } } →
        (∀ b rest n e f, l.rx.bufs = b :: rest → b.cond = .started n e f → ∀ x : ErrorSet × Option Nat,
          x = summaryWith e f { parity := false, framing := false, overrun := loss } (n + l.rx.hold.length) →
          l' = { l0.closing i s.time b rest n l.rx.hold x.1 x.2 (if gap then .gap else .brk) none with
            counters := { l.counters with
              gapCloses := if gap then satInc l.counters.gapCloses else l.counters.gapCloses } }) ∧
        (l.hasStarted = false →
          ∀ l1 : Line, l1 = { l0 with rx := { l0.rx with lossCarried := l.rx.lossCarried || loss } } →
          l' = if gap then l1
            else if l.events.length < 4 then { l1 with events := l.events ++
              [{ dest := l.set.boundCq, time := s.time, body := .breakIdle i }] }
            else { l1 with counters := { l.counters with eventsLost := satInc l.counters.eventsLost } })
    else exec c s = .next s

/-- R57. An invalid record at the front of the buffer list is answered with its fault when the receive pending slot is
empty and the line is in SEEK, TRIAL, OPEN or CLOSING before its wind-up, and in no other case; while it stands there the
writer takes no entry. The wind-up answers it in the same way. -/
def Obligations.InvalidRecordAnswered : Prop :=
  ∀ (s : State) (i : LineNo) (l : Line) (b : RxBuf) (rest : List RxBuf) (f : RecordFault), s.resetHeld = false →
    l = s.line i → l.rx.bufs = b :: rest → b.cond = .invalid f → ∀ l1 : Line,
    l1 = { l with rx := { l.rx with
      bufs := rest
      slot := some { dest := l.set.boundCq, time := s.time
                     body := .rxDone i b.tag 0
                       (match f with
                         | .badRecord => .badRecord
                         | .addressFault => .addressFault)
                       { parity := false, framing := false, overrun := false } none none } } } →
    (l.rx.slot = none → inSession l.state = true ∨ (l.state = .closing ∧ l.windingUp = false) →
      ∃ t, exec (.answerInvalidRecord i) s = .next t ∧ LineTakes i s t l1) ∧
    (l.rx.slot ≠ none ∨ l.state = .closed ∨ l.windingUp = true → exec (.answerInvalidRecord i) s = .next s) ∧
    (exec (.takeCharacterEntry i) s = .next s ∧ exec (.takeGapMarker i) s = .next s ∧
      exec (.takeBreakMarker i) s = .next s) ∧
    (l.rx.slot = none → l.windingUp = true → ∃ t, exec (.windUpBufferAnswer i) s = .next t ∧ LineTakes i s t l1)

/-- R9, R77, R78, R63. The wind-up answers a started buffer with CLOSED after storing its held bytes, and a waiting record
with CLOSED and count 0. A chunk write that ended OK counts its bytes as written; one that failed closes the started buffer
with BUS_ERROR and the written count, or changes the RX_DONE that waits in the slot to that; what is left of the chunk is
discarded. -/
def Obligations.BuffersAnsweredAndWritten : Prop :=
  ∀ (s : State) (i : LineNo) (l : Line), s.resetHeld = false → l = s.line i →
    (l.windingUp = true → l.rx.slot = none → ∀ b rest, l.rx.bufs = b :: rest →
      (∀ n e f, b.cond = .started n e f → ∃ t, exec (.windUpBufferAnswer i) s = .next t ∧
        LineTakes i s t (l.closing i s.time b rest n l.rx.hold e f .closed none)) ∧
      (b.cond = .waiting → ∃ t, exec (.windUpBufferAnswer i) s = .next t ∧
        LineTakes i s t { l with rx := { l.rx with
          bufs := rest
          slot := some { dest := l.set.boundCq, time := s.time
                         body := .rxDone i b.tag 0 .closed ErrorSet.empty none none } } })) ∧
    ∀ (n : Nat) (x : Result), l.rx.inFlight = some n → s.result? (.chunk i) = some x →
      ∃ t l', exec (.chunkWriteEnds i) s = .next t ∧ LineTakes i (s.dropResult (.chunk i)) t l' ∧
        (x.data ≠ none → l' = { l with rx := { l.rx with inFlight := none, written := l.rx.written + n } }) ∧
        (∀ c k tag count reason e f d, x.data = none → l.rx.slot = some c → c.body = .rxDone k tag count reason e f d →
          l' = { l with rx := { l.rx with
            inFlight := none, chunk := []
            slot := some { c with body := .rxDone k tag l.rx.written .busError e f none } } }) ∧
        (∀ b rest m e f, x.data = none → l.rx.slot = none → l.rx.bufs = b :: rest → b.cond = .started m e f →
          l' = { l with rx := { l.rx with
            inFlight := none, chunk := [], hold := [], bufs := rest
            slot := some { dest := l.set.boundCq, time := s.time
                           body := .rxDone i b.tag l.rx.written .busError e f none } } })

/-- R9, R10, R11, R16, R51, R130, R62, R109. A wind-up ends when the buffer list, both slots and the event list are
empty, the output is at mark, every admitted record of the line is written and no fetch of its queues is in flight. The
line is then CLOSED; the CONTROL_DONEs of the tags it holds are appended in the order taken, a GRACEFUL one ABORTED
when it was overtaken or the part is STOPPING (log entry 22), and RATE_NOT_FOUND last. While one of these conditions
fails the wait goes on: a WIND_UP_END then changes nothing, which is the model's choice of what it answers (log entry
5). That loss_pending and gap armed stay as they are is the model's choice (log entry 19). -/
def Obligations.WindUpEndsTheClose : Prop :=
  ∀ (s : State) (i : LineNo) (l : Line) (waited : Prop), s.resetHeld = false → l = s.line i →
    (waited ↔ l.windingUp = true ∧ l.rx.bufs = [] ∧ l.rx.slot = none ∧ l.tx.slot = none ∧ l.events = [] ∧
      l.tx.output = .mark ∧ (∀ c : CqNo, ∀ e ∈ (s.cq c).staging, producerOfLine i e.producer = false) ∧
      (s.rq (txq i)).fetch = false ∧ (s.rq (rpq i)).fetch = false) →
    (¬ waited → exec (.windUpEnd i) s = .next s) ∧
    (waited → ∀ done : Byte → Half → Status → Completion,
      (∀ code tag st, done code tag st = { dest := 0, time := s.time, body := .controlDone code (some i) tag st }) →
      exec (.windUpEnd i) s = .next (s.setLine i { l with
        state := .closed, long := .noRequest, close := CloseSide.reset, flow := Flow.reset
        rx := { l.rx with fifo := [], hold := [], lossCarried := false }
        tx := { l.tx with fifo := [], cur := none, st := .idle, ending := none }
        events :=
          (match l.long with
            | .noRequest => []
            | .flushTx tag => [done 6 tag .aborted]
            | .closeLine .graceful tag => [done 8 tag (if s.part = .stopping then .aborted else .ok)]
            | .closeLine .immediate tag => [done 8 tag .ok]
            | .twoCloses g tag => [done 8 g .aborted, done 8 tag .ok]) ++
          (match l.close.failure with
            | some (reason, n) => [{ dest := l.set.boundCq, time := s.time, body := .rateNotFound i reason n }]
            | none => []) }))

/-! ### Completion queues and the end of a stop -/

/-- R139, R12, R13, R116, R135. A record is ready in a pending slot once its chunk writes or its data read have ended,
at the front of an event list, and in the control pending slot. An offer of a record that is ready finds room when the
staging list holds fewer than 8 records and no producer waits: the record joins the back of the list, its place gives
it up, and an idle queue that is not full begins to write it. Otherwise the producer joins the back of the waiting
list. -/
def Obligations.OfferAdmitsOrWaits : Prop :=
  (∀ (s : State) (p : Producer), s.readyRecord p = match p with
    | .rxSlot i => if (s.line i).rx.chunk = [] ∧ (s.line i).rx.inFlight = none then (s.line i).rx.slot else none
    | .txSlot i => if (s.line i).tx.readInFlight = none then (s.line i).tx.slot else none
    | .events i => (s.line i).events.head?
    | .control => s.control.slot) ∧
  ∀ (s : State) (p : Producer) (r : Completion) (x : CplQueue), s.resetHeld = false → s.readyRecord p = some r →
    s.part = .running ∨ s.part = .stopping → x = s.cq r.dest → p ∉ x.waiting →
    if x.staging.length < 8 ∧ x.waiting = [] then
      ∀ y : CplQueue, y = { x with staging := x.staging ++ [{ producer := p, record := r }] } →
      ∃ u t, exec (.offer p) s = .next t ∧
        u = { s with
          cplQueues := u.cplQueues
          engine := { s.engine with listA := s.engine.listA ++ bodyRequests r.dest y } } ∧
        (∀ d, d ≠ r.dest → u.cq d = s.cq d) ∧
        u.cq r.dest = { y with write := if y.write = .noWrite ∧ y.isFull = false then .body else y.write } ∧
        GivesUp p u t
    else exec (.offer p) s = .next (s.setCq r.dest { x with waiting := x.waiting ++ [p] })

/-- R135, R140, R146, R147, R161, R193. When an entry's body has been written its head word follows; when that has been
written the entry leaves staging, the tail advances, the phase flips at the wrap, an ARMED queue is asserted at its
threshold or has its moderation timer started, the front waiter is admitted and the next body begins. An entry's bytes
are laid out as section 12.5 gives. The moderation timer's expiry stops it and asserts an ARMED queue with an entry
unretired; that an expiry with the timer stopped changes nothing is the model's choice (log entry 5). A progress write
that ended OK is no longer in progress; that it still counts as in progress while a later one is on the bus, or has a
result that waits to be taken, is the model's choice (log entry 9). -/
def Obligations.EntryWritesAndModeration : Prop :=
  (∀ (s : State) (x : Result) (bs : List Byte), s.resetHeld = false → x.data = some bs →
    (∀ (c : CqNo) (e : Staged) (es : List Staged) (y : CplQueue), y = s.cq c → y.staging = e :: es →
      (y.write = .body → s.result? (.body c) = some x → exec (.bodyAccessEnds c) s =
        .next (((s.dropResult (.body c)).setCq c { y with write := .headWord }).request
          { requester := .headWord c, addr := y.base + BitVec.ofNat 32 (16 * y.tail)
            transfer := .write
              [BitVec.ofNat 8 (kindCode e.record.body + (if y.phase then 128 else 0)), 0, 0, 0] })) ∧
      (y.write = .headWord → s.result? (.headWord c) = some x → ∀ n z, y.size = some n →
        z = { y with
          staging := es, write := .noWrite
          tail := if y.tail + 1 = n then 0 else y.tail + 1
          phase := if y.tail + 1 = n then !y.phase else y.phase } →
        ∃ notif timer, exec (.headWordEnds c) s =
            .next ((((s.dropResult (.headWord c)).setCq c { z with notif := notif, timer := timer }).admitWaiter
              c).beginEntry c) ∧
          (y.notif ≠ .armed → notif = y.notif ∧ timer = y.timer) ∧
          (y.notif = .armed →
            if z.threshold ≤ z.unretired then notif = .asserted ∧ timer = none
            else if y.timer ≠ none then notif = .armed ∧ timer = y.timer
            else if y.delay = 0 then notif = .asserted ∧ timer = none
            else notif = .armed ∧ timer = some y.delay))) ∧
    (s.progressActive = true → s.result? .progress = some x → ∃ p,
      exec .progressWriteEnds s = .next { s.dropResult .progress with progressActive := p } ∧
        (p = true ↔ (∃ a, s.engine.access = some a ∧ a.deliver = true ∧ a.request.requester = .progress) ∨
          (s.dropResult .progress).result? .progress ≠ none))) ∧
  (∀ (s : State) (c : CqNo) (x : CplQueue), x = s.cq c →
    (x.waiting = [] → s.admitWaiter c = s) ∧
    (∀ p rest r, x.waiting = p :: rest → s.readyRecord p = some r →
      GivesUp p (s.setCq c { x with waiting := rest, staging := x.staging ++ [{ producer := p, record := r }] })
        (s.admitWaiter c)) ∧
    (s.part = .running ∨ s.part = .stopping → s.beginEntry c = { s.setCq c { x with
        write := if x.staging ≠ [] ∧ x.write = .noWrite ∧ x.isFull = false then .body else x.write } with
      engine := { s.engine with listA := s.engine.listA ++ bodyRequests c x } })) ∧
  (∀ b : CplBody, CompletionLayout b b.bytes) ∧
  ∀ (s : State) (c : CqNo) (x : CplQueue), s.resetHeld = false → x = s.cq c →
    (x.timer = none → exec (.moderationTimerExpiry c) s = .next s) ∧
    (x.timer ≠ none → exec (.moderationTimerExpiry c) s = .next (s.setCq c { x with
      timer := none
      notif := if x.notif = .armed ∧ x.unretired ≠ 0 then .asserted else x.notif }))

/-- R186, R187, R151. STOPPING ends when every line is CLOSED with its places empty, the Control Unit is IDLE with an
empty slot, nothing is staged or waiting, the Engine is idle and no result waits to be taken. At the stop limit what is
not written is discarded: a CLOSED line loses the records in its places, a line still CLOSING (as every other line is
in STOPPING) takes its reset values but its counters, DISCARDED is set, and the part is STOPPED at once or when the
access in progress has ended. That STOPPING waits for the results, that a STOPPING_ENDS while one of these conditions
fails changes nothing, and that the Engine keeps its last granted members, is the model's choice (log entries 5, 16,
24). -/
def Obligations.StoppingEndsInStopped : Prop :=
  ∀ s : State, s.resetHeld = false →
    (∀ waited : Prop, (waited ↔ s.part = .stopping ∧
        (∀ i, (s.line i).state = .closed ∧ (s.line i).rx.slot = none ∧ (s.line i).tx.slot = none ∧
          (s.line i).events = []) ∧
        s.control.st = .idle ∧ s.control.slot = none ∧ (∀ c, (s.cq c).staging = [] ∧ (s.cq c).waiting = []) ∧
        s.engine.access = none ∧
        (s.engine.listA = [] ∧ s.engine.listB = [] ∧ s.engine.listC = [] ∧ s.engine.listD = []) ∧
        s.engine.results = []) →
      (waited → exec .stoppingEnds s = .next { s with
        part := .stopped, stopLimit := none, stopExpired := false
        cplQueues := s.cplQueues.map fun x => { x with timer := none } }) ∧
      (¬ waited → exec .stoppingEnds s = .next s)) ∧
    (s.part = .stopping → s.stopLimit ≠ none → ∃ t, exec .stopLimitExpiry s = .next t ∧
      t = { s with
        part := if s.engine.access = none then .stopped else .stopping
        discarded := true, stopLimit := none
        stopExpired := decide (s.engine.access ≠ none)
        progressWaits := false, progressActive := false, control := ControlUnit.reset, lines := t.lines
        reqQueues := s.reqQueues.map fun q => { q with fetch := false }
        cplQueues := s.cplQueues.map fun x => { x with
          staging := [], waiting := [], write := .noWrite
          timer := if s.engine.access = none then none else x.timer }
        engine := { s.engine with
          access := s.engine.access.map fun a => { a with deliver := false }
          listA := [], listB := [], listC := [], listD := [], results := [] } } ∧
      ∀ i, t.line i =
        if (s.line i).state = .closed then { s.line i with
          events := [], rx := { (s.line i).rx with slot := none }, tx := { (s.line i).tx with slot := none } }
        else { Line.reset with counters := (s.line i).counters })

/-! ### Local rules -/

/-- R168. A range of at least one byte is allowed for a permission exactly when it does not run past 0xFFFFFFFF and one used
window holds the permission and contains the whole range: two windows that cover it only together do not, and a permission
is never had from a window that grants only the other. -/
def Obligations.RangeNeedsOneWindow : Prop :=
  ∀ (ws : List Window) (a : Word) (n : Nat), 1 ≤ n →
    (rangeAllowed ws false a n = true ↔ a.toNat + n - 1 ≤ 0xFFFFFFFF ∧ ∃ w ∈ ws, w.len ≠ 0 ∧ w.read = true ∧
      w.base.toNat ≤ a.toNat ∧ a.toNat + n - 1 ≤ w.base.toNat + w.len.toNat - 1) ∧
    (rangeAllowed ws true a n = true ↔ a.toNat + n - 1 ≤ 0xFFFFFFFF ∧ ∃ w ∈ ws, w.len ≠ 0 ∧ w.write = true ∧
      w.base.toNat ≤ a.toNat ∧ a.toNat + n - 1 ≤ w.base.toNat + w.len.toNat - 1)

/-- R99, R100, R101. With the flow logic active, an occupancy at the high mark or above sets own_paused and asks for a
PAUSE, or takes back a RESUME not yet sent; one at the low mark or below clears own_paused and asks for a RESUME, or takes
back a PAUSE not yet sent. In every other case the test changes nothing. -/
def Obligations.FlowTestsMove : Prop :=
  ∀ l : Line,
    (l.flowActive = true ↔ l.set.flowMode = .inband ∧ (l.state = .opened ∨ l.draining = true)) ∧
    l.flowRise = (if l.flowActive = true ∧ l.set.highMark ≤ l.rx.fifo.length ∧ l.flow.ownPaused = false ∧
        l.flow.slot ≠ some .pause then
      { l with flow := { l.flow with ownPaused := true, slot := if l.flow.slot = none then some .pause else none } }
      else l) ∧
    l.flowFall = (if l.flowActive = true ∧ l.rx.fifo.length ≤ l.set.lowMark ∧ l.flow.ownPaused = true ∧
        l.flow.slot ≠ some .resume then
      { l with flow := { l.flow with ownPaused := false, slot := if l.flow.slot = none then some .resume else none } }
      else l)

/-- R55, R63, R80, R83, R85, R87, R102, R158, R6, R13, R92, R94, R96. What a line does at once when it has taken a happening. It
asks for its chunk write in class B when the chunk holds 16 bytes or its buffer has closed, for its next data read in
class C, and for the fetches of its two queues in class D, of 16 bytes at the head's slot, when it may take a further
record of each; this is so of every happening that the line takes. A flow character goes before data on an output at mark.
Aborts carried out with the output at mark begin the wind-up, a drain's transmit side is done at its boundary or at a
halted queue, and a drain that is done on both sides ends; a flush whose record has ended fetches, ends at its boundary
or at a halt, and has its CONTROL_DONE appended once the event list has room. That the line does these in this order,
its receive posts before its transmit records, that a drain's done side stays done, that a flush's status is fixed at
its end, and that a record which a flush or an abort is to end asks for no read, is the model's choice (log entries 17,
20, 21, 32). -/
def Obligations.LineMakesItsRequests : Prop :=
  (∀ (s : State) (i : LineNo) (l : Line) (t : State), l = s.line i → t = s.settleLine i → LineTakes i s t l) ∧
  (∀ (s t : State) (i : LineNo) (l : Line), LineTakes i s t l →
    t.engine.listA = s.engine.listA ∧
    t.engine.listB = s.engine.listB ++
      (if l.rx.inFlight = none ∧ l.rx.chunk ≠ [] ∧ (16 ≤ l.rx.chunk.length ∨ l.rx.slot ≠ none) then
        [{ requester := .chunk i, addr := l.rx.chunkAddr, transfer := .write (l.rx.chunk.take 16) }] else []) ∧
    t.engine.listC = s.engine.listC ++
      (match l.tx.cur with
        | some c =>
          if l.tx.st = .sending ∧ l.tx.ending = none ∧ l.tx.readInFlight = none ∧
              l.chooseOutput.tx.fifo.length ≤ 16 ∧ c.bytesRead < c.record.len then
            [{ requester := .dataRead i, addr := c.record.addr + BitVec.ofNat 32 c.bytesRead
               transfer := .read (min 16 (c.record.len - c.bytesRead)) }] else []
        | none => []) ∧
    t.engine.listD = s.engine.listD ++
      (if (t.line i).asksRpq (s.rq (rpq i)) then
        [{ requester := .fetch (rpq i)
           addr := (s.rq (rpq i)).base + BitVec.ofNat 32 (16 * (s.rq (rpq i)).head), transfer := .read 16 }] else []) ++
      (if (t.line i).asksTxq (s.rq (txq i)) then
        [{ requester := .fetch (txq i)
           addr := (s.rq (txq i)).base + BitVec.ofNat 32 (16 * (s.rq (txq i)).head), transfer := .read 16 }] else [])) ∧
  (∀ (l : Line) (x : ReqQueue),
    (l.asksRpq x = true ↔
      (l.state = .seek ∨ l.state = .trial ∨ l.state = .opened ∨
        (l.state = .closing ∧ l.close.phase = some .drain ∧ l.rx.fifo ≠ [])) ∧
      l.rx.bufs.length < 4 ∧ x.head ≠ x.tail ∧ x.halted = false ∧ x.fetch = false) ∧
    (l.asksTxq x = true ↔
      l.tx.st = .idle ∧ l.tx.cur = none ∧ l.tx.slot = none ∧
      ((l.state = .opened ∧ ∀ tag, l.long ≠ .flushTx tag) ∨
        (l.state = .closing ∧ l.close.phase = some .drain ∧ l.close.txDone = false ∧ l.close.boundary ≠ some x.head) ∨
        ((∃ tag, l.long = .flushTx tag) ∧ (l.state = .seek ∨ l.state = .trial ∨ l.state = .opened) ∧
          l.tx.flushDue = none ∧ l.tx.flushBoundary ≠ some x.head)) ∧
      x.head ≠ x.tail ∧ x.halted = false ∧ x.fetch = false)) ∧
  (∀ (l l1 l2 l3 l4 l5 l6 : Line) (i : LineNo) (time : Word) (q : ReqQueue) (due : Option Status),
    l1 = Line.chooseOutput
      (if l.rx.inFlight = none ∧ l.rx.chunk ≠ [] ∧ (16 ≤ l.rx.chunk.length ∨ l.rx.slot ≠ none) then
        { l with rx := { l.rx with
          chunk := l.rx.chunk.drop 16
          chunkAddr := l.rx.chunkAddr + BitVec.ofNat 32 (min 16 l.rx.chunk.length)
          inFlight := some (min 16 l.rx.chunk.length) } }
       else l) →
    l2 = (match l1.tx.cur with
      | some c =>
        if l1.tx.st = .sending ∧ l1.tx.ending = none ∧ l1.tx.readInFlight = none ∧ l1.tx.fifo.length ≤ 16 ∧
            c.bytesRead < c.record.len then
          { l1 with tx := { l1.tx with readInFlight := some (min 16 (c.record.len - c.bytesRead)) } }
        else l1
      | none => l1) →
    l3 = (if l2.state = .closing ∧ l2.close.phase = some .aborting ∧ l2.tx.output = .mark ∧ l2.tx.cur = none then
        { l2 with close := { l2.close with phase := some .windUp } }
      else l2) →
    l4 = (if l3.draining = true ∧ l3.tx.st = .idle ∧ l3.tx.cur = none ∧
          (l3.close.boundary = some q.head ∨ q.halted = true) then
        { l3 with close := { l3.close with txDone := true } }
      else l3) →
    l5 = (if l4.draining = true ∧ l4.rx.fifo = [] ∧ l4.close.txDone = true ∧ l4.flow.slot = none then
        { l4 with
          close := { l4.close with phase := some .windUp, drainTimer := none }
          flow := { l4.flow with timer := none } }
      else l4) →
    l6 = (if l5.tx.flushPhase = some .ending ∧ l5.tx.cur = none then
        { l5 with tx := { l5.tx with flushPhase := some .fetching } }
      else l5) →
    due = (if l6.flushing = true ∧ l6.tx.flushPhase = some .fetching ∧ l6.tx.slot = none ∧ q.fetch = false ∧
          l6.tx.flushDue = none then
        if l6.tx.flushBoundary = some q.head then some .ok
        else if q.halted then some .queueState
        else none
      else l6.tx.flushDue) →
    l.settled i time q = match l6.long, due with
      | .flushTx tag, some st =>
        if l6.events.length < 4 then
          { l6 with
            events := l6.events ++ [{ dest := 0, time := time, body := .controlDone 6 (some i) tag st }]
            long := .noRequest
            tx := { l6.tx with flushBoundary := none, flushPhase := none, flushDue := none } }
        else { l6 with tx := { l6.tx with flushDue := due } }
      | _, _ => { l6 with tx := { l6.tx with flushDue := due } }) ∧
  ∀ l : Line, l.chooseOutput =
    if l.tx.output ≠ .mark then l
    else match l.flow.slot, (decide (l.state = .opened) || l.draining) && decide (l.tx.st ≠ .brk), l.tx.fifo with
      | some c, true, _ => { l with
          flow := { l.flow with slot := none }
          tx := { l.tx with output := .flow c (l.frame.wireBits (match c with
            | .pause => l.set.pauseValue
            | .resume => l.set.resumeValue)) } }
      | _, _, v :: rest =>
        if l.tx.st = .sending ∧ l.tx.ending = none ∧ l.flow.peerPaused = false then
          { l with tx := { l.tx with output := .data (l.frame.wireBits v), fifo := rest } }
        else l
      | _, _, [] => l

/-! ### Invariants of the whole machine -/

/-- The state after reset meets every invariant. -/
def Obligations.ResetMeetsTheInvariants : Prop :=
  MemoryOrdered State.reset ∧ WithinCapacity State.reset ∧ TransmitFifoBounded State.reset ∧
    ClosedLinesEmpty State.reset ∧ FlowCombinations State.reset ∧ TransmitterAgrees State.reset ∧
    ReadsAccounted State.reset ∧
    BufferSideAgrees State.reset ∧ ArmedBelowThreshold State.reset ∧ RateTableValid State.reset ∧
    HoldingGuardsTable State.reset ∧ RequestRingsInRange State.reset ∧ CompletionRingsInRange State.reset

/-- Host memory, as a list of addresses and bytes, keeps its canonical form at every step. The form is the model's own
(log entry 2). -/
def Obligations.StepKeepsMemoryOrdered : Prop := KeptByEveryStep MemoryOrdered

/-- R1, R13, R27, R54, R55, R65, R83, R134, R136, R139, R167. At every step the receive FIFO, the buffer list, the event
list, the delimiter table, the trial characters and the transmit FIFO of a line, the staging list and the
waiting-producer list of a completion queue, with no producer twice, and the window table keep within their capacities.
The match hold and the write chunk are those of `Obligations.StepKeepsTheBufferSide`, the rate table that of
`Obligations.StepKeepsTheRateTable`. -/
def Obligations.StepKeepsCapacities : Prop := KeptByEveryStep WithinCapacity ∧ KeptByEveryStep TransmitFifoBounded

/-- R2, R98, R99. At every step a CLOSED line stays empty, and own_paused and the flow pending slot stay in one of their
four combinations. -/
def Obligations.StepKeepsClosedLinesAndFlow : Prop := KeptByEveryStep ClosedLinesEmpty ∧ KeptByEveryStep FlowCombinations

/-- R80, R82, R83, R84, R85, R86, R89, R90, R92, R96. The transmitter's state, its current record, its slot and its
output agree after every step; only a current record is still to end, with ABORTED or with BUS_ERROR; and the bytes of
its record that are read, in flight and sent agree, and the data read that the Memory Engine has for it. -/
def Obligations.StepKeepsTheTransmitter : Prop := KeptByEveryStep fun s => TransmitterAgrees s ∧ ReadsAccounted s

/-- R54, R56, R63, R64, R65, R70, R77. The buffer list, the delimiter table, the match hold and the write chunk of a line
agree after every step: a started buffer never fills without closing, and the chunk never needs more than its 16
places. -/
def Obligations.StepKeepsTheBufferSide : Prop := KeptByEveryStep BufferSideAgrees

/-- R134, R142, R143, R144, R146, R155, R156, R159. The indices of every ring stay inside it at every step, and with
the completion rings' indices inside them an ARMED queue stays below its threshold. -/
def Obligations.StepKeepsTheRings : Prop :=
  KeptByEveryStep RequestRingsInRange ∧ KeptByEveryStep CompletionRingsInRange ∧
    ∀ s t : State, CompletionRingsInRange s → ArmedBelowThreshold s → step s = .next t → ArmedBelowThreshold t

/-- R35, R36, R37, R38. The rate table keeps at most 12 entries, in range and disjoint, at every step, where a held
SET_RATE_TABLE asks for 1 to 12 entries, which every step keeps too; and the table does not change in a step before and
after which some line is in SEEK or TRIAL. -/
def Obligations.StepKeepsTheRateTable : Prop :=
  KeptByEveryStep HoldingGuardsTable ∧ (KeptByEveryStep fun s => RateTableValid s ∧ HoldingGuardsTable s) ∧
    ∀ (s t : State) (i j : LineNo), HoldingGuardsTable s → step s = .next t → (s.line i).discovering = true →
      (t.line j).discovering = true → t.rateTable = s.rateTable

end Statements
end

