-- ==== Sys2Proof/Laws/State.lean ====
section
/-! SUPPORT. The small lemmas of State: what each update of one place leaves as it was, field by field, and what reading a
place gives after an update. -/

namespace Sys2Proof.Machine

@[simp] theorem State.setLine_part (s : State) (i : LineNo) (l : Line) : (s.setLine i l).part = s.part := rfl
@[simp] theorem State.setLine_resetHeld (s : State) (i : LineNo) (l : Line) : (s.setLine i l).resetHeld = s.resetHeld := rfl
@[simp] theorem State.setLine_softPending (s : State) (i : LineNo) (l : Line) : (s.setLine i l).softPending = s.softPending := rfl
@[simp] theorem State.setLine_run (s : State) (i : LineNo) (l : Line) : (s.setLine i l).run = s.run := rfl
@[simp] theorem State.setLine_cause (s : State) (i : LineNo) (l : Line) : (s.setLine i l).cause = s.cause := rfl
@[simp] theorem State.setLine_discarded (s : State) (i : LineNo) (l : Line) : (s.setLine i l).discarded = s.discarded := rfl
@[simp] theorem State.setLine_postRejected (s : State) (i : LineNo) (l : Line) : (s.setLine i l).postRejected = s.postRejected := rfl
@[simp] theorem State.setLine_retireRejected (s : State) (i : LineNo) (l : Line) : (s.setLine i l).retireRejected = s.retireRejected := rfl
@[simp] theorem State.setLine_setupAddr (s : State) (i : LineNo) (l : Line) : (s.setLine i l).setupAddr = s.setupAddr := rfl
@[simp] theorem State.setLine_faultAddr (s : State) (i : LineNo) (l : Line) : (s.setLine i l).faultAddr = s.faultAddr := rfl
@[simp] theorem State.setLine_notifyFault (s : State) (i : LineNo) (l : Line) : (s.setLine i l).notifyFault = s.notifyFault := rfl
@[simp] theorem State.setLine_time (s : State) (i : LineNo) (l : Line) : (s.setLine i l).time = s.time := rfl
@[simp] theorem State.setLine_stopLimit (s : State) (i : LineNo) (l : Line) : (s.setLine i l).stopLimit = s.stopLimit := rfl
@[simp] theorem State.setLine_stopExpired (s : State) (i : LineNo) (l : Line) : (s.setLine i l).stopExpired = s.stopExpired := rfl
@[simp] theorem State.setLine_loadAbandoned (s : State) (i : LineNo) (l : Line) : (s.setLine i l).loadAbandoned = s.loadAbandoned := rfl
@[simp] theorem State.setLine_windows (s : State) (i : LineNo) (l : Line) : (s.setLine i l).windows = s.windows := rfl
@[simp] theorem State.setLine_rateTable (s : State) (i : LineNo) (l : Line) : (s.setLine i l).rateTable = s.rateTable := rfl
@[simp] theorem State.setLine_reqQueues (s : State) (i : LineNo) (l : Line) : (s.setLine i l).reqQueues = s.reqQueues := rfl
@[simp] theorem State.setLine_cplQueues (s : State) (i : LineNo) (l : Line) : (s.setLine i l).cplQueues = s.cplQueues := rfl
@[simp] theorem State.setLine_progressAddr (s : State) (i : LineNo) (l : Line) : (s.setLine i l).progressAddr = s.progressAddr := rfl
@[simp] theorem State.setLine_progressWaits (s : State) (i : LineNo) (l : Line) : (s.setLine i l).progressWaits = s.progressWaits := rfl
@[simp] theorem State.setLine_progressActive (s : State) (i : LineNo) (l : Line) : (s.setLine i l).progressActive = s.progressActive := rfl
@[simp] theorem State.setLine_engine (s : State) (i : LineNo) (l : Line) : (s.setLine i l).engine = s.engine := rfl
@[simp] theorem State.setLine_control (s : State) (i : LineNo) (l : Line) : (s.setLine i l).control = s.control := rfl
@[simp] theorem State.setLine_rxd (s : State) (i : LineNo) (l : Line) : (s.setLine i l).rxd = s.rxd := rfl
@[simp] theorem State.setLine_mem (s : State) (i : LineNo) (l : Line) : (s.setLine i l).mem = s.mem := rfl
@[simp] theorem State.setLine_freeNext (s : State) (i : LineNo) (l : Line) : (s.setLine i l).freeNext = s.freeNext := rfl
@[simp] theorem State.setLine_readData (s : State) (i : LineNo) (l : Line) : (s.setLine i l).readData = s.readData := rfl
@[simp] theorem State.setLine_pending (s : State) (i : LineNo) (l : Line) : (s.setLine i l).pending = s.pending := rfl

@[simp] theorem State.setRq_part (s : State) (q : RqNo) (x : ReqQueue) : (s.setRq q x).part = s.part := rfl
@[simp] theorem State.setRq_resetHeld (s : State) (q : RqNo) (x : ReqQueue) : (s.setRq q x).resetHeld = s.resetHeld := rfl
@[simp] theorem State.setRq_softPending (s : State) (q : RqNo) (x : ReqQueue) : (s.setRq q x).softPending = s.softPending := rfl
@[simp] theorem State.setRq_run (s : State) (q : RqNo) (x : ReqQueue) : (s.setRq q x).run = s.run := rfl
@[simp] theorem State.setRq_cause (s : State) (q : RqNo) (x : ReqQueue) : (s.setRq q x).cause = s.cause := rfl
@[simp] theorem State.setRq_discarded (s : State) (q : RqNo) (x : ReqQueue) : (s.setRq q x).discarded = s.discarded := rfl
@[simp] theorem State.setRq_postRejected (s : State) (q : RqNo) (x : ReqQueue) : (s.setRq q x).postRejected = s.postRejected := rfl
@[simp] theorem State.setRq_retireRejected (s : State) (q : RqNo) (x : ReqQueue) : (s.setRq q x).retireRejected = s.retireRejected := rfl
@[simp] theorem State.setRq_setupAddr (s : State) (q : RqNo) (x : ReqQueue) : (s.setRq q x).setupAddr = s.setupAddr := rfl
@[simp] theorem State.setRq_faultAddr (s : State) (q : RqNo) (x : ReqQueue) : (s.setRq q x).faultAddr = s.faultAddr := rfl
@[simp] theorem State.setRq_notifyFault (s : State) (q : RqNo) (x : ReqQueue) : (s.setRq q x).notifyFault = s.notifyFault := rfl
@[simp] theorem State.setRq_time (s : State) (q : RqNo) (x : ReqQueue) : (s.setRq q x).time = s.time := rfl
@[simp] theorem State.setRq_stopLimit (s : State) (q : RqNo) (x : ReqQueue) : (s.setRq q x).stopLimit = s.stopLimit := rfl
@[simp] theorem State.setRq_stopExpired (s : State) (q : RqNo) (x : ReqQueue) : (s.setRq q x).stopExpired = s.stopExpired := rfl
@[simp] theorem State.setRq_loadAbandoned (s : State) (q : RqNo) (x : ReqQueue) : (s.setRq q x).loadAbandoned = s.loadAbandoned := rfl
@[simp] theorem State.setRq_windows (s : State) (q : RqNo) (x : ReqQueue) : (s.setRq q x).windows = s.windows := rfl
@[simp] theorem State.setRq_rateTable (s : State) (q : RqNo) (x : ReqQueue) : (s.setRq q x).rateTable = s.rateTable := rfl
@[simp] theorem State.setRq_lines (s : State) (q : RqNo) (x : ReqQueue) : (s.setRq q x).lines = s.lines := rfl
@[simp] theorem State.setRq_cplQueues (s : State) (q : RqNo) (x : ReqQueue) : (s.setRq q x).cplQueues = s.cplQueues := rfl
@[simp] theorem State.setRq_progressAddr (s : State) (q : RqNo) (x : ReqQueue) : (s.setRq q x).progressAddr = s.progressAddr := rfl
@[simp] theorem State.setRq_progressWaits (s : State) (q : RqNo) (x : ReqQueue) : (s.setRq q x).progressWaits = s.progressWaits := rfl
@[simp] theorem State.setRq_progressActive (s : State) (q : RqNo) (x : ReqQueue) : (s.setRq q x).progressActive = s.progressActive := rfl
@[simp] theorem State.setRq_engine (s : State) (q : RqNo) (x : ReqQueue) : (s.setRq q x).engine = s.engine := rfl
@[simp] theorem State.setRq_control (s : State) (q : RqNo) (x : ReqQueue) : (s.setRq q x).control = s.control := rfl
@[simp] theorem State.setRq_rxd (s : State) (q : RqNo) (x : ReqQueue) : (s.setRq q x).rxd = s.rxd := rfl
@[simp] theorem State.setRq_mem (s : State) (q : RqNo) (x : ReqQueue) : (s.setRq q x).mem = s.mem := rfl
@[simp] theorem State.setRq_freeNext (s : State) (q : RqNo) (x : ReqQueue) : (s.setRq q x).freeNext = s.freeNext := rfl
@[simp] theorem State.setRq_readData (s : State) (q : RqNo) (x : ReqQueue) : (s.setRq q x).readData = s.readData := rfl
@[simp] theorem State.setRq_pending (s : State) (q : RqNo) (x : ReqQueue) : (s.setRq q x).pending = s.pending := rfl

@[simp] theorem State.setCq_part (s : State) (c : CqNo) (x : CplQueue) : (s.setCq c x).part = s.part := rfl
@[simp] theorem State.setCq_resetHeld (s : State) (c : CqNo) (x : CplQueue) : (s.setCq c x).resetHeld = s.resetHeld := rfl
@[simp] theorem State.setCq_softPending (s : State) (c : CqNo) (x : CplQueue) : (s.setCq c x).softPending = s.softPending := rfl
@[simp] theorem State.setCq_run (s : State) (c : CqNo) (x : CplQueue) : (s.setCq c x).run = s.run := rfl
@[simp] theorem State.setCq_cause (s : State) (c : CqNo) (x : CplQueue) : (s.setCq c x).cause = s.cause := rfl
@[simp] theorem State.setCq_discarded (s : State) (c : CqNo) (x : CplQueue) : (s.setCq c x).discarded = s.discarded := rfl
@[simp] theorem State.setCq_postRejected (s : State) (c : CqNo) (x : CplQueue) : (s.setCq c x).postRejected = s.postRejected := rfl
@[simp] theorem State.setCq_retireRejected (s : State) (c : CqNo) (x : CplQueue) : (s.setCq c x).retireRejected = s.retireRejected := rfl
@[simp] theorem State.setCq_setupAddr (s : State) (c : CqNo) (x : CplQueue) : (s.setCq c x).setupAddr = s.setupAddr := rfl
@[simp] theorem State.setCq_faultAddr (s : State) (c : CqNo) (x : CplQueue) : (s.setCq c x).faultAddr = s.faultAddr := rfl
@[simp] theorem State.setCq_notifyFault (s : State) (c : CqNo) (x : CplQueue) : (s.setCq c x).notifyFault = s.notifyFault := rfl
@[simp] theorem State.setCq_time (s : State) (c : CqNo) (x : CplQueue) : (s.setCq c x).time = s.time := rfl
@[simp] theorem State.setCq_stopLimit (s : State) (c : CqNo) (x : CplQueue) : (s.setCq c x).stopLimit = s.stopLimit := rfl
@[simp] theorem State.setCq_stopExpired (s : State) (c : CqNo) (x : CplQueue) : (s.setCq c x).stopExpired = s.stopExpired := rfl
@[simp] theorem State.setCq_loadAbandoned (s : State) (c : CqNo) (x : CplQueue) : (s.setCq c x).loadAbandoned = s.loadAbandoned := rfl
@[simp] theorem State.setCq_windows (s : State) (c : CqNo) (x : CplQueue) : (s.setCq c x).windows = s.windows := rfl
@[simp] theorem State.setCq_rateTable (s : State) (c : CqNo) (x : CplQueue) : (s.setCq c x).rateTable = s.rateTable := rfl
@[simp] theorem State.setCq_lines (s : State) (c : CqNo) (x : CplQueue) : (s.setCq c x).lines = s.lines := rfl
@[simp] theorem State.setCq_reqQueues (s : State) (c : CqNo) (x : CplQueue) : (s.setCq c x).reqQueues = s.reqQueues := rfl
@[simp] theorem State.setCq_progressAddr (s : State) (c : CqNo) (x : CplQueue) : (s.setCq c x).progressAddr = s.progressAddr := rfl
@[simp] theorem State.setCq_progressWaits (s : State) (c : CqNo) (x : CplQueue) : (s.setCq c x).progressWaits = s.progressWaits := rfl
@[simp] theorem State.setCq_progressActive (s : State) (c : CqNo) (x : CplQueue) : (s.setCq c x).progressActive = s.progressActive := rfl
@[simp] theorem State.setCq_engine (s : State) (c : CqNo) (x : CplQueue) : (s.setCq c x).engine = s.engine := rfl
@[simp] theorem State.setCq_control (s : State) (c : CqNo) (x : CplQueue) : (s.setCq c x).control = s.control := rfl
@[simp] theorem State.setCq_rxd (s : State) (c : CqNo) (x : CplQueue) : (s.setCq c x).rxd = s.rxd := rfl
@[simp] theorem State.setCq_mem (s : State) (c : CqNo) (x : CplQueue) : (s.setCq c x).mem = s.mem := rfl
@[simp] theorem State.setCq_freeNext (s : State) (c : CqNo) (x : CplQueue) : (s.setCq c x).freeNext = s.freeNext := rfl
@[simp] theorem State.setCq_readData (s : State) (c : CqNo) (x : CplQueue) : (s.setCq c x).readData = s.readData := rfl
@[simp] theorem State.setCq_pending (s : State) (c : CqNo) (x : CplQueue) : (s.setCq c x).pending = s.pending := rfl

@[simp] theorem State.setRxd_part (s : State) (i : LineNo) (v : Level) : (s.setRxd i v).part = s.part := rfl
@[simp] theorem State.setRxd_resetHeld (s : State) (i : LineNo) (v : Level) : (s.setRxd i v).resetHeld = s.resetHeld := rfl
@[simp] theorem State.setRxd_softPending (s : State) (i : LineNo) (v : Level) : (s.setRxd i v).softPending = s.softPending := rfl
@[simp] theorem State.setRxd_run (s : State) (i : LineNo) (v : Level) : (s.setRxd i v).run = s.run := rfl
@[simp] theorem State.setRxd_cause (s : State) (i : LineNo) (v : Level) : (s.setRxd i v).cause = s.cause := rfl
@[simp] theorem State.setRxd_discarded (s : State) (i : LineNo) (v : Level) : (s.setRxd i v).discarded = s.discarded := rfl
@[simp] theorem State.setRxd_postRejected (s : State) (i : LineNo) (v : Level) : (s.setRxd i v).postRejected = s.postRejected := rfl
@[simp] theorem State.setRxd_retireRejected (s : State) (i : LineNo) (v : Level) : (s.setRxd i v).retireRejected = s.retireRejected := rfl
@[simp] theorem State.setRxd_setupAddr (s : State) (i : LineNo) (v : Level) : (s.setRxd i v).setupAddr = s.setupAddr := rfl
@[simp] theorem State.setRxd_faultAddr (s : State) (i : LineNo) (v : Level) : (s.setRxd i v).faultAddr = s.faultAddr := rfl
@[simp] theorem State.setRxd_notifyFault (s : State) (i : LineNo) (v : Level) : (s.setRxd i v).notifyFault = s.notifyFault := rfl
@[simp] theorem State.setRxd_time (s : State) (i : LineNo) (v : Level) : (s.setRxd i v).time = s.time := rfl
@[simp] theorem State.setRxd_stopLimit (s : State) (i : LineNo) (v : Level) : (s.setRxd i v).stopLimit = s.stopLimit := rfl
@[simp] theorem State.setRxd_stopExpired (s : State) (i : LineNo) (v : Level) : (s.setRxd i v).stopExpired = s.stopExpired := rfl
@[simp] theorem State.setRxd_loadAbandoned (s : State) (i : LineNo) (v : Level) : (s.setRxd i v).loadAbandoned = s.loadAbandoned := rfl
@[simp] theorem State.setRxd_windows (s : State) (i : LineNo) (v : Level) : (s.setRxd i v).windows = s.windows := rfl
@[simp] theorem State.setRxd_rateTable (s : State) (i : LineNo) (v : Level) : (s.setRxd i v).rateTable = s.rateTable := rfl
@[simp] theorem State.setRxd_lines (s : State) (i : LineNo) (v : Level) : (s.setRxd i v).lines = s.lines := rfl
@[simp] theorem State.setRxd_reqQueues (s : State) (i : LineNo) (v : Level) : (s.setRxd i v).reqQueues = s.reqQueues := rfl
@[simp] theorem State.setRxd_cplQueues (s : State) (i : LineNo) (v : Level) : (s.setRxd i v).cplQueues = s.cplQueues := rfl
@[simp] theorem State.setRxd_progressAddr (s : State) (i : LineNo) (v : Level) : (s.setRxd i v).progressAddr = s.progressAddr := rfl
@[simp] theorem State.setRxd_progressWaits (s : State) (i : LineNo) (v : Level) : (s.setRxd i v).progressWaits = s.progressWaits := rfl
@[simp] theorem State.setRxd_progressActive (s : State) (i : LineNo) (v : Level) : (s.setRxd i v).progressActive = s.progressActive := rfl
@[simp] theorem State.setRxd_engine (s : State) (i : LineNo) (v : Level) : (s.setRxd i v).engine = s.engine := rfl
@[simp] theorem State.setRxd_control (s : State) (i : LineNo) (v : Level) : (s.setRxd i v).control = s.control := rfl
@[simp] theorem State.setRxd_mem (s : State) (i : LineNo) (v : Level) : (s.setRxd i v).mem = s.mem := rfl
@[simp] theorem State.setRxd_freeNext (s : State) (i : LineNo) (v : Level) : (s.setRxd i v).freeNext = s.freeNext := rfl
@[simp] theorem State.setRxd_readData (s : State) (i : LineNo) (v : Level) : (s.setRxd i v).readData = s.readData := rfl
@[simp] theorem State.setRxd_pending (s : State) (i : LineNo) (v : Level) : (s.setRxd i v).pending = s.pending := rfl

@[simp] theorem State.request_part (s : State) (r : Request) : (s.request r).part = s.part := rfl
@[simp] theorem State.request_resetHeld (s : State) (r : Request) : (s.request r).resetHeld = s.resetHeld := rfl
@[simp] theorem State.request_softPending (s : State) (r : Request) : (s.request r).softPending = s.softPending := rfl
@[simp] theorem State.request_run (s : State) (r : Request) : (s.request r).run = s.run := rfl
@[simp] theorem State.request_cause (s : State) (r : Request) : (s.request r).cause = s.cause := rfl
@[simp] theorem State.request_discarded (s : State) (r : Request) : (s.request r).discarded = s.discarded := rfl
@[simp] theorem State.request_postRejected (s : State) (r : Request) : (s.request r).postRejected = s.postRejected := rfl
@[simp] theorem State.request_retireRejected (s : State) (r : Request) : (s.request r).retireRejected = s.retireRejected := rfl
@[simp] theorem State.request_setupAddr (s : State) (r : Request) : (s.request r).setupAddr = s.setupAddr := rfl
@[simp] theorem State.request_faultAddr (s : State) (r : Request) : (s.request r).faultAddr = s.faultAddr := rfl
@[simp] theorem State.request_notifyFault (s : State) (r : Request) : (s.request r).notifyFault = s.notifyFault := rfl
@[simp] theorem State.request_time (s : State) (r : Request) : (s.request r).time = s.time := rfl
@[simp] theorem State.request_stopLimit (s : State) (r : Request) : (s.request r).stopLimit = s.stopLimit := rfl
@[simp] theorem State.request_stopExpired (s : State) (r : Request) : (s.request r).stopExpired = s.stopExpired := rfl
@[simp] theorem State.request_loadAbandoned (s : State) (r : Request) : (s.request r).loadAbandoned = s.loadAbandoned := rfl
@[simp] theorem State.request_windows (s : State) (r : Request) : (s.request r).windows = s.windows := rfl
@[simp] theorem State.request_rateTable (s : State) (r : Request) : (s.request r).rateTable = s.rateTable := rfl
@[simp] theorem State.request_lines (s : State) (r : Request) : (s.request r).lines = s.lines := rfl
@[simp] theorem State.request_reqQueues (s : State) (r : Request) : (s.request r).reqQueues = s.reqQueues := rfl
@[simp] theorem State.request_cplQueues (s : State) (r : Request) : (s.request r).cplQueues = s.cplQueues := rfl
@[simp] theorem State.request_progressAddr (s : State) (r : Request) : (s.request r).progressAddr = s.progressAddr := rfl
@[simp] theorem State.request_progressWaits (s : State) (r : Request) : (s.request r).progressWaits = s.progressWaits := rfl
@[simp] theorem State.request_progressActive (s : State) (r : Request) : (s.request r).progressActive = s.progressActive := rfl
@[simp] theorem State.request_control (s : State) (r : Request) : (s.request r).control = s.control := rfl
@[simp] theorem State.request_rxd (s : State) (r : Request) : (s.request r).rxd = s.rxd := rfl
@[simp] theorem State.request_mem (s : State) (r : Request) : (s.request r).mem = s.mem := rfl
@[simp] theorem State.request_freeNext (s : State) (r : Request) : (s.request r).freeNext = s.freeNext := rfl
@[simp] theorem State.request_readData (s : State) (r : Request) : (s.request r).readData = s.readData := rfl
@[simp] theorem State.request_pending (s : State) (r : Request) : (s.request r).pending = s.pending := rfl

@[simp] theorem State.dropResult_part (s : State) (w : Requester) : (s.dropResult w).part = s.part := rfl
@[simp] theorem State.dropResult_resetHeld (s : State) (w : Requester) : (s.dropResult w).resetHeld = s.resetHeld := rfl
@[simp] theorem State.dropResult_softPending (s : State) (w : Requester) : (s.dropResult w).softPending = s.softPending := rfl
@[simp] theorem State.dropResult_run (s : State) (w : Requester) : (s.dropResult w).run = s.run := rfl
@[simp] theorem State.dropResult_cause (s : State) (w : Requester) : (s.dropResult w).cause = s.cause := rfl
@[simp] theorem State.dropResult_discarded (s : State) (w : Requester) : (s.dropResult w).discarded = s.discarded := rfl
@[simp] theorem State.dropResult_postRejected (s : State) (w : Requester) : (s.dropResult w).postRejected = s.postRejected := rfl
@[simp] theorem State.dropResult_retireRejected (s : State) (w : Requester) : (s.dropResult w).retireRejected = s.retireRejected := rfl
@[simp] theorem State.dropResult_setupAddr (s : State) (w : Requester) : (s.dropResult w).setupAddr = s.setupAddr := rfl
@[simp] theorem State.dropResult_faultAddr (s : State) (w : Requester) : (s.dropResult w).faultAddr = s.faultAddr := rfl
@[simp] theorem State.dropResult_notifyFault (s : State) (w : Requester) : (s.dropResult w).notifyFault = s.notifyFault := rfl
@[simp] theorem State.dropResult_time (s : State) (w : Requester) : (s.dropResult w).time = s.time := rfl
@[simp] theorem State.dropResult_stopLimit (s : State) (w : Requester) : (s.dropResult w).stopLimit = s.stopLimit := rfl
@[simp] theorem State.dropResult_stopExpired (s : State) (w : Requester) : (s.dropResult w).stopExpired = s.stopExpired := rfl
@[simp] theorem State.dropResult_loadAbandoned (s : State) (w : Requester) : (s.dropResult w).loadAbandoned = s.loadAbandoned := rfl
@[simp] theorem State.dropResult_windows (s : State) (w : Requester) : (s.dropResult w).windows = s.windows := rfl
@[simp] theorem State.dropResult_rateTable (s : State) (w : Requester) : (s.dropResult w).rateTable = s.rateTable := rfl
@[simp] theorem State.dropResult_lines (s : State) (w : Requester) : (s.dropResult w).lines = s.lines := rfl
@[simp] theorem State.dropResult_reqQueues (s : State) (w : Requester) : (s.dropResult w).reqQueues = s.reqQueues := rfl
@[simp] theorem State.dropResult_cplQueues (s : State) (w : Requester) : (s.dropResult w).cplQueues = s.cplQueues := rfl
@[simp] theorem State.dropResult_progressAddr (s : State) (w : Requester) : (s.dropResult w).progressAddr = s.progressAddr := rfl
@[simp] theorem State.dropResult_progressWaits (s : State) (w : Requester) : (s.dropResult w).progressWaits = s.progressWaits := rfl
@[simp] theorem State.dropResult_progressActive (s : State) (w : Requester) : (s.dropResult w).progressActive = s.progressActive := rfl
@[simp] theorem State.dropResult_control (s : State) (w : Requester) : (s.dropResult w).control = s.control := rfl
@[simp] theorem State.dropResult_rxd (s : State) (w : Requester) : (s.dropResult w).rxd = s.rxd := rfl
@[simp] theorem State.dropResult_mem (s : State) (w : Requester) : (s.dropResult w).mem = s.mem := rfl
@[simp] theorem State.dropResult_freeNext (s : State) (w : Requester) : (s.dropResult w).freeNext = s.freeNext := rfl
@[simp] theorem State.dropResult_readData (s : State) (w : Requester) : (s.dropResult w).readData = s.readData := rfl
@[simp] theorem State.dropResult_pending (s : State) (w : Requester) : (s.dropResult w).pending = s.pending := rfl

/-! ### Reading after an update -/

@[simp] theorem State.line_setLine_self (s : State) (i : LineNo) (l : Line) : (s.setLine i l).line i = l := by
  simp [State.line, State.setLine]

theorem State.line_setLine_ne (s : State) {i j : LineNo} (l : Line) (h : j ≠ i) : (s.setLine i l).line j = s.line j := by
  have : i.val ≠ j.val := fun e => h (Fin.ext e.symm)
  simp [State.line, State.setLine, this]

@[simp] theorem State.rq_setRq_self (s : State) (q : RqNo) (x : ReqQueue) : (s.setRq q x).rq q = x := by
  simp [State.rq, State.setRq]

theorem State.rq_setRq_ne (s : State) {p q : RqNo} (x : ReqQueue) (h : q ≠ p) : (s.setRq p x).rq q = s.rq q := by
  have : p.val ≠ q.val := fun e => h (Fin.ext e.symm)
  simp [State.rq, State.setRq, this]

@[simp] theorem State.cq_setCq_self (s : State) (c : CqNo) (x : CplQueue) : (s.setCq c x).cq c = x := by
  simp [State.cq, State.setCq]

theorem State.cq_setCq_ne (s : State) {c d : CqNo} (x : CplQueue) (h : d ≠ c) : (s.setCq c x).cq d = s.cq d := by
  have : c.val ≠ d.val := fun e => h (Fin.ext e.symm)
  simp [State.cq, State.setCq, this]

/-- A line reads as the vector of lines holds it: two states with the same lines have the same line. -/
theorem State.line_congr {s t : State} (h : t.lines = s.lines) (i : LineNo) : t.line i = s.line i := by
  simp [State.line, h]

theorem State.rq_congr {s t : State} (h : t.reqQueues = s.reqQueues) (q : RqNo) : t.rq q = s.rq q := by
  simp [State.rq, h]

theorem State.cq_congr {s t : State} (h : t.cplQueues = s.cplQueues) (c : CqNo) : t.cq c = s.cq c := by
  simp [State.cq, h]

@[simp] theorem State.line_setRq (s : State) (q : RqNo) (x : ReqQueue) (i : LineNo) : (s.setRq q x).line i = s.line i :=
  rfl
@[simp] theorem State.line_setCq (s : State) (c : CqNo) (x : CplQueue) (i : LineNo) : (s.setCq c x).line i = s.line i :=
  rfl
@[simp] theorem State.line_setRxd (s : State) (j : LineNo) (v : Level) (i : LineNo) : (s.setRxd j v).line i = s.line i :=
  rfl
@[simp] theorem State.line_request (s : State) (r : Request) (i : LineNo) : (s.request r).line i = s.line i := rfl
@[simp] theorem State.line_dropResult (s : State) (w : Requester) (i : LineNo) : (s.dropResult w).line i = s.line i :=
  rfl
@[simp] theorem State.rq_setLine (s : State) (i : LineNo) (l : Line) (q : RqNo) : (s.setLine i l).rq q = s.rq q := rfl
@[simp] theorem State.rq_setCq (s : State) (c : CqNo) (x : CplQueue) (q : RqNo) : (s.setCq c x).rq q = s.rq q := rfl
@[simp] theorem State.rq_setRxd (s : State) (j : LineNo) (v : Level) (q : RqNo) : (s.setRxd j v).rq q = s.rq q := rfl
@[simp] theorem State.rq_request (s : State) (r : Request) (q : RqNo) : (s.request r).rq q = s.rq q := rfl
@[simp] theorem State.rq_dropResult (s : State) (w : Requester) (q : RqNo) : (s.dropResult w).rq q = s.rq q := rfl
@[simp] theorem State.cq_setLine (s : State) (i : LineNo) (l : Line) (c : CqNo) : (s.setLine i l).cq c = s.cq c := rfl
@[simp] theorem State.cq_setRq (s : State) (q : RqNo) (x : ReqQueue) (c : CqNo) : (s.setRq q x).cq c = s.cq c := rfl
@[simp] theorem State.cq_setRxd (s : State) (j : LineNo) (v : Level) (c : CqNo) : (s.setRxd j v).cq c = s.cq c := rfl
@[simp] theorem State.cq_request (s : State) (r : Request) (c : CqNo) : (s.request r).cq c = s.cq c := rfl
@[simp] theorem State.cq_dropResult (s : State) (w : Requester) (c : CqNo) : (s.dropResult w).cq c = s.cq c := rfl

/-- Changing a line twice is one change. -/
theorem State.updLine_line_self (s : State) (i : LineNo) (f : Line → Line) : (s.updLine i f).line i = f (s.line i) :=
  State.line_setLine_self s i _

theorem State.updLine_line_ne (s : State) {i j : LineNo} (f : Line → Line) (h : j ≠ i) :
    (s.updLine i f).line j = s.line j :=
  State.line_setLine_ne s _ h

@[simp] theorem State.rq_updLine (s : State) (i : LineNo) (f : Line → Line) (q : RqNo) : (s.updLine i f).rq q = s.rq q :=
  rfl
@[simp] theorem State.cq_updLine (s : State) (i : LineNo) (f : Line → Line) (c : CqNo) : (s.updLine i f).cq c = s.cq c :=
  rfl
@[simp] theorem State.updLine_time (s : State) (i : LineNo) (f : Line → Line) : (s.updLine i f).time = s.time := rfl

/-- The two request queues of a line, and the control queue, are three queues. -/
theorem txq_ne_rpq (i j : LineNo) : txq i ≠ rpq j := by
  intro h
  have := congrArg Fin.val h
  simp [txq, rpq] at this
  omega

/-- Distinct lines have distinct queues. -/
theorem rpq_ne_rpq {i j : LineNo} (h : i ≠ j) : rpq i ≠ rpq j := by
  intro e
  have := congrArg Fin.val e
  simp [rpq] at this
  exact h (Fin.ext (by omega))

theorem txq_ne_txq {i j : LineNo} (h : i ≠ j) : txq i ≠ txq j := by
  intro e
  have := congrArg Fin.val e
  simp [txq] at this
  exact h (Fin.ext (by omega))

theorem txq_ne_zero (i : LineNo) : txq i ≠ 0 := by
  intro h
  have := congrArg Fin.val h
  simp [txq] at this

theorem rpq_ne_zero (i : LineNo) : rpq i ≠ 0 := by
  intro h
  have := congrArg Fin.val h
  simp [rpq] at this

/-- The consumer of a line's TXQ is its transmitter. -/
theorem rqKind_txq (i : LineNo) : rqKind (txq i) = .tx i := by
  revert i; decide

/-- The consumer of a line's RPQ is its receive side. -/
theorem rqKind_rpq (i : LineNo) : rqKind (rpq i) = .rp i := by
  revert i; decide

end Sys2Proof.Machine
end

