-- ==== Sys2Proof/Laws/Buffer.lean ====
section
/-! SUPPORT. What the operations over a started buffer can do, in the terms of `Line.storing` and `Line.closing`. -/

namespace Sys2Proof.Machine

variable {l : Line} {b : RxBuf} {rest : List RxBuf} {n : Nat} {e : ErrorSet} {f : Option Nat}

/-- Storing bytes in a started buffer. -/
theorem store_started (hb : l.rx.bufs = b :: rest) (hc : b.cond = .started n e f) (bs : List Byte) :
    l.store bs = l.storing b rest n bs e f l.rx.hold := by
  rcases l with ⟨_, _, _, _, _, _, _, rx, _, _, _, _, _⟩
  rcases rx with ⟨_, _, _, _, _, _, _, _, bufs, _, _, _, _, _⟩
  rcases b with ⟨_, _, _, cond⟩
  simp only at hb hc
  subst hb hc
  by_cases hn : bs = [] <;> simp [Line.store, Line.storing, hn]

/-- Releasing the hold into a started buffer. -/
theorem releaseHold_started (hb : l.rx.bufs = b :: rest) (hc : b.cond = .started n e f) :
    l.releaseHold = l.storing b rest n l.rx.hold e f [] := by
  rw [Line.releaseHold, store_started hb hc]
  rfl

/-- Joining flags to the summary of a started buffer. -/
theorem addErrors_started (hb : l.rx.bufs = b :: rest) (hc : b.cond = .started n e f) (added : ErrorSet) (offset : Nat) :
    l.addErrors added offset = l.storing b rest n [] (summaryWith e f added offset).1 (summaryWith e f added offset).2
      l.rx.hold := by
  simp [Line.addErrors, hb, hc, Line.storing, summaryWith, ErrorSet.union, firstErrorAfter]

/-- Closing a started buffer. -/
theorem closeBuffer_started (hb : l.rx.bufs = b :: rest) (hc : b.cond = .started n e f) (i : LineNo) (time : Word)
    (reason : RxReason) (d : Option Nat) : l.closeBuffer i time reason d = l.closing i time b rest n [] e f reason d := by
  simp [Line.closeBuffer, hb, hc, Line.closing, Line.rxDone]

/-- The record and the condition that `Line.storing` leaves at the front. -/
theorem storing_bufs (bs h : List Byte) :
    (l.storing b rest n bs e f h).rx.bufs = { b with cond := .started (n + bs.length) e f } :: rest := rfl

/-- Two stores in a row are one. -/
theorem storing_storing (bs cs h h' : List Byte) (e' : ErrorSet) (f' : Option Nat) :
    (l.storing b rest n bs e f h).storing { b with cond := .started (n + bs.length) e f } rest (n + bs.length) cs e' f' h' =
      l.storing b rest n (bs ++ cs) e' f' h' := by
  by_cases h1 : l.rx.chunk = [] <;> by_cases h2 : bs = [] <;> by_cases h3 : cs = [] <;>
    simp [Line.storing, h1, h2, h3, Nat.add_assoc]

/-- A store and a close are one. -/
theorem storing_closing (i : LineNo) (time : Word) (bs cs h : List Byte) (e' : ErrorSet) (f' : Option Nat)
    (reason : RxReason) (d : Option Nat) :
    (l.storing b rest n bs e f h).closing i time { b with cond := .started (n + bs.length) e f } rest (n + bs.length) cs
      e' f' reason d = l.closing i time b rest n (bs ++ cs) e' f' reason d := by
  by_cases h1 : l.rx.chunk = [] <;> by_cases h2 : bs = [] <;> by_cases h3 : cs = [] <;>
    simp [Line.storing, Line.closing, h1, h2, h3, Nat.add_assoc]

/-- The stored count and the length of a started buffer. -/
theorem stored_started (hb : l.rx.bufs = b :: rest) (hc : b.cond = .started n e f) : l.stored = n := by
  simp [Line.stored, hb, hc]

theorem frontLength_started (hb : l.rx.bufs = b :: rest) : l.frontLength = b.len := by simp [Line.frontLength, hb]

/-- A record with no status yet takes that of the cause. -/
@[simp] theorem endingStatus_none (i : LineNo) (time : Word) (st : Status) : endingStatus i time none st = st := rfl

/-- Two causes with the same status leave it. -/
@[simp] theorem endingStatus_same (i : LineNo) (time : Word) (st : Status) : endingStatus i time (some st) st = st := by
  simp [endingStatus]

/-- The status of an ending record is always that of one of its causes. -/
theorem endingStatus_of_either (i : LineNo) (time : Word) (f st : Status) :
    endingStatus i time (some f) st = f ∨ endingStatus i time (some f) st = st := by
  simp only [endingStatus]
  by_cases h : f = st
  · simp [h]
  · by_cases hw : Config.laterCauseWins i time = true <;> simp [h, hw]

end Sys2Proof.Machine
end

