-- ==== Sys2Proof/Laws/Memory.lean ====
section
/-! SUPPORT. The laws of the memory list: every operation keeps its canonical form, a read after a write to the same
address gives the byte written, and a write leaves every other address alone. -/

namespace Sys2Proof.Machine

/-- The first address of a list is above `a`. -/
def memAbove (a : Nat) : List Host.Cell → Prop
  | [] => True
  | (b, _) :: _ => a < b

/-- The canonical form, one entry at a time. -/
theorem memWf_cons (a : Nat) (v : Byte) (m : List Host.Cell) :
    memWf ((a, v) :: m) = true ↔ memAbove a m ∧ memWf m = true := by
  cases m with
  | nil => simp [memWf, memAbove]
  | cons e m => obtain ⟨b, w⟩ := e; simp [memWf, memAbove]

theorem memAbove_memWrite {a x : Nat} (v : Byte) {m : List Host.Cell} (h : memAbove a m) (hx : a < x) :
    memAbove a (memWrite m x v) := by
  cases m with
  | nil => simpa [memWrite, memAbove] using hx
  | cons e m =>
    obtain ⟨b, w⟩ := e
    simp only [memWrite]
    split
    · exact hx
    · split
      · exact hx
      · exact h

/-- Writing a byte keeps the canonical form. -/
theorem memWf_memWrite (m : List Host.Cell) (x : Nat) (v : Byte) (h : memWf m = true) :
    memWf (memWrite m x v) = true := by
  induction m with
  | nil => rfl
  | cons e m ih =>
    obtain ⟨b, w⟩ := e
    obtain ⟨ha, hm⟩ := (memWf_cons b w m).1 h
    simp only [memWrite]
    split
    · exact (memWf_cons _ _ _).2 ⟨‹_›, h⟩
    · split
      · subst_vars; exact (memWf_cons _ _ _).2 ⟨ha, hm⟩
      · exact (memWf_cons _ _ _).2 ⟨memAbove_memWrite v ha (by omega), ih hm⟩

/-- Writing a run of bytes keeps the canonical form. -/
theorem memWf_memWriteBytes (bs : List Byte) : ∀ (m : List Host.Cell) (x : Nat), memWf m = true →
    memWf (memWriteBytes m x bs) = true := by
  induction bs with
  | nil => intro m x h; exact h
  | cons v vs ih => intro m x h; exact ih _ _ (memWf_memWrite m x v h)

/-- A failed or abandoned write keeps the canonical form, whatever has landed. -/
theorem memWf_memLandBytes (bs : List Byte) : ∀ (m : List Host.Cell) (x n : Nat), memWf m = true →
    memWf (memLandBytes m x bs n) = true := by
  induction bs with
  | nil => intro m x n h; exact h
  | cons v vs ih =>
    intro m x n h
    simp only [memLandBytes]
    split
    · exact ih _ _ _ (memWf_memWrite m x v h)
    · exact ih _ _ _ h

/-- A read after a write to the same address gives the byte written; every other address reads as before. This holds of
any list. -/
theorem memRead_memWrite (m : List Host.Cell) (x y : Nat) (v : Byte) :
    memRead (memWrite m x v) y = if y = x then some v else memRead m y := by
  induction m with
  | nil => simp [memWrite, memRead]
  | cons e m ih =>
    obtain ⟨b, w⟩ := e
    simp only [memWrite]
    split
    · simp only [memRead]
    · split
      · subst_vars; simp only [memRead]; split <;> rfl
      · simp only [memRead, ih]
        split
        · subst_vars; split
          · omega
          · rfl
        · rfl

/-- A run of bytes changes no address outside its range. -/
theorem memRead_memWriteBytes_outside (bs : List Byte) : ∀ (m : List Host.Cell) (x y : Nat),
    y < x ∨ x + bs.length ≤ y → memRead (memWriteBytes m x bs) y = memRead m y := by
  induction bs with
  | nil => intro m x y _; rfl
  | cons v vs ih =>
    intro m x y h
    simp only [List.length_cons] at h
    rw [memWriteBytes, ih _ _ _ (by omega), memRead_memWrite, if_neg (by omega)]

/-- A run of bytes reads back as written. -/
theorem memRead_memWriteBytes_inside (bs : List Byte) : ∀ (m : List Host.Cell) (x k : Nat) (h : k < bs.length),
    memRead (memWriteBytes m x bs) (x + k) = some bs[k] := by
  induction bs with
  | nil => intro m x k h; simp at h
  | cons v vs ih =>
    intro m x k h
    cases k with
    | zero =>
      rw [memWriteBytes, memRead_memWriteBytes_outside _ _ _ _ (by omega), memRead_memWrite]; simp
    | succ k =>
      rw [memWriteBytes, show x + (k + 1) = x + 1 + k by omega, ih _ _ _ (by simpa using h)]; rfl

/-- A failed or abandoned write changes no address outside its range. -/
theorem memRead_memLandBytes_outside (bs : List Byte) : ∀ (m : List Host.Cell) (x y n : Nat),
    y < x ∨ x + bs.length ≤ y → memRead (memLandBytes m x bs n) y = memRead m y := by
  induction bs with
  | nil => intro m x y n _; rfl
  | cons v vs ih =>
    intro m x y n h
    simp only [List.length_cons] at h
    rw [memLandBytes, ih _ _ _ _ (by omega)]
    split
    · rw [memRead_memWrite, if_neg (by omega)]
    · rfl

/-- Each byte of a failed or abandoned write reads as written or as before, as its free value says. -/
theorem memRead_memLandBytes_inside (bs : List Byte) : ∀ (m : List Host.Cell) (x n k : Nat) (h : k < bs.length),
    memRead (memLandBytes m x bs n) (x + k) =
      if Config.failedWriteLands (n + k) then some bs[k] else memRead m (x + k) := by
  induction bs with
  | nil => intro m x n k h; simp at h
  | cons v vs ih =>
    intro m x n k h
    cases k with
    | zero =>
      rw [memLandBytes, memRead_memLandBytes_outside _ _ _ _ _ (by omega)]
      by_cases hl : Config.failedWriteLands n <;> simp [hl, memRead_memWrite]
    | succ k =>
      rw [memLandBytes, show x + (k + 1) = x + 1 + k by omega, ih _ _ _ _ (by simpa using h),
        show n + 1 + k = n + (k + 1) by omega]
      have : memRead (if Config.failedWriteLands n then memWrite m x v else m) (x + 1 + k) = memRead m (x + 1 + k) := by
        split
        · rw [memRead_memWrite, if_neg (by omega)]
        · rfl
      rw [this]; rfl

end Sys2Proof.Machine
end

