-- ==== Sys2Proof/Laws/Operands.lean ====
section
/-! SUPPORT. What the bytes of a record read back as: a 16-bit and a 32-bit number written byte by byte (R192), a byte of
flags, and the head word of a completion entry (R193). -/

namespace Sys2Proof.Machine

/-- A 16-bit number is read back from its two bytes (R192). -/
theorem half_extract (h : Half) : half (h.extractLsb' 0 8) (h.extractLsb' 8 8) = h := by
  apply BitVec.eq_of_toNat_eq
  simp only [half, BitVec.toNat_append, BitVec.extractLsb'_toNat, Nat.shiftRight_eq_div_pow]
  have := h.isLt
  rw [← Nat.shiftLeft_add_eq_or_of_lt (by omega), Nat.shiftLeft_eq]
  omega

/-- A 32-bit number is read back from its four bytes (R192). -/
theorem word_extract (w : Word) :
    word (w.extractLsb' 0 8) (w.extractLsb' 8 8) (w.extractLsb' 16 8) (w.extractLsb' 24 8) = w := by
  apply BitVec.eq_of_toNat_eq
  simp only [word, BitVec.toNat_append, BitVec.extractLsb'_toNat, Nat.shiftRight_eq_div_pow]
  have := w.isLt
  rw [← Nat.shiftLeft_add_eq_or_of_lt (by omega), ← Nat.shiftLeft_add_eq_or_of_lt (by omega),
    ← Nat.shiftLeft_add_eq_or_of_lt (by omega)]
  simp only [Nat.shiftLeft_eq]
  omega

/-- Each flag of a byte of flags stands in its own bit. -/
theorem flagBits_getLsbD (a b c d e f g h : Bool) : ∀ k < 8,
    (flagBit 0 a ||| flagBit 1 b ||| flagBit 2 c ||| flagBit 3 d ||| flagBit 4 e ||| flagBit 5 f ||| flagBit 6 g |||
      flagBit 7 h).getLsbD k = [a, b, c, d, e, f, g, h].getD k false := by
  cases a <;> cases b <;> cases c <;> cases d <;> cases e <;> cases f <;> cases g <;> cases h <;> decide

/-- The head word of an entry: the kind in the low bits of its first byte, the phase in bit 7, 0 above. -/
theorem headBytes_eq (c : Completion) (phase : Bool) :
    c.headBytes phase = [BitVec.ofNat 8 (kindCode c.body + (if phase then 128 else 0)), 0, 0, 0] := by
  simp only [Completion.headBytes]
  cases c.body <;> cases phase <;> simp [nibbles, kindCode, CplBody.kind]

end Sys2Proof.Machine
end

