-- ==== Sys2Proof/Laws/Settle.lean ====
section
/-! SUPPORT. What a line's own happening can do: the one lemma about `State.settleLine` and `State.onLine` that the proofs
cite instead of unfolding them, and the same of all lines settled in turn. -/

namespace Sys2Proof.Machine

/-! ### Frames compose -/

theorem OnlyLine.refl (i : LineNo) (s : State) : OnlyLine i s s := ⟨rfl, fun _ _ => ⟨rfl, rfl⟩⟩

theorem OnlyLine.trans {i : LineNo} {s t u : State} (h1 : OnlyLine i s t) (h2 : OnlyLine i t u) : OnlyLine i s u := by
  obtain ⟨e1, l1⟩ := h1
  obtain ⟨e2, l2⟩ := h2
  exact ⟨by rw [e2, e1], fun j hj => ⟨(l2 j hj).1.trans (l1 j hj).1, (l2 j hj).2.trans (l1 j hj).2⟩⟩

/-- Changing one line leaves everything else alone. -/
theorem OnlyLine.setLine (i : LineNo) (s : State) (l : Line) : OnlyLine i s (s.setLine i l) :=
  ⟨rfl, fun _ hj => ⟨State.line_setLine_ne s l hj, rfl⟩⟩

theorem OnlyLine.updLine (i : LineNo) (s : State) (f : Line → Line) : OnlyLine i s (s.updLine i f) :=
  OnlyLine.setLine i s _

/-- The level of the line's pin leaves everything else alone. -/
theorem OnlyLine.setRxd (i : LineNo) (s : State) (v : Level) : OnlyLine i s (s.setRxd i v) := by
  refine ⟨rfl, fun j hj => ⟨rfl, ?_⟩⟩
  have : i.val ≠ j.val := fun e => hj (Fin.ext e.symm)
  simp [State.setRxd, this]

/-! ### A line's own steps, as equations -/

@[simp] theorem setLine_self (s : State) (i : LineNo) : s.setLine i (s.line i) = s := by
  have h : s.lines.set i (s.lines[i]) = s.lines := by ext i hi; simp
  show { s with lines := s.lines.set i (s.lines[i]) } = s
  rw [h]

theorem chunkDue_iff (l : Line) :
    l.chunkDue = true ↔ l.rx.inFlight = none ∧ l.rx.chunk ≠ [] ∧ (16 ≤ l.rx.chunk.length ∨ l.rx.slot ≠ none) := by
  simp [Line.chunkDue, Option.isSome_iff_ne_none, and_assoc]

/-- Everything `State.issueChunk` can do (R63). -/
theorem issueChunk_eq (s : State) (i : LineNo) : s.issueChunk i = { s.setLine i (s.line i).chunkIssued with
    engine := { s.engine with listB := s.engine.listB ++ (s.line i).chunkRequests i } } := by
  by_cases h : (s.line i).chunkDue = true
  · simp only [State.issueChunk, if_pos h, Line.chunkRequests, if_pos ((chunkDue_iff _).1 h)]
    rfl
  · simp only [State.issueChunk, if_neg h, Line.chunkRequests, if_neg (mt (chunkDue_iff _).2 h), Line.chunkIssued,
      setLine_self, List.append_nil]

/-- Issuing a chunk leaves the transmit side alone. -/
@[simp] theorem chunkIssued_tx (l : Line) : l.chunkIssued.tx = l.tx := by
  unfold Line.chunkIssued; split <;> rfl

/-- Choosing the next output leaves the record, its end and its reads alone. -/
theorem chooseOutput_tx (l : Line) : l.chooseOutput.tx.cur = l.tx.cur ∧ l.chooseOutput.tx.st = l.tx.st ∧
    l.chooseOutput.tx.ending = l.tx.ending ∧ l.chooseOutput.tx.readInFlight = l.tx.readInFlight := by
  simp only [Line.chooseOutput, Line.startFlow, Line.startData]
  repeat' split
  all_goals exact ⟨rfl, rfl, rfl, rfl⟩

/-- Choosing the next output leaves the receive side alone and does not depend on it. -/
theorem chooseOutput_rx (l : Line) (x : RxSide) :
    ({ l with rx := x } : Line).chooseOutput = { l.chooseOutput with rx := x } := by
  have hd : ({ l with rx := x } : Line).startData = { l.startData with rx := x } := by
    cases h : l.tx.fifo <;> simp [Line.startData, h]
  have hi : (if l.dataMayStart = true then ({ l with rx := x } : Line).startData else { l with rx := x }) =
      { (if l.dataMayStart = true then l.startData else l) with rx := x } := by
    split
    · exact hd
    · rfl
  by_cases ho : l.tx.output = .mark
  · cases hs : l.flow.slot with
    | none =>
      simp only [Line.chooseOutput, ho, hs, if_true]
      exact hi
    | some c =>
      by_cases hc : (l.state = .opened ∨ l.draining = true) ∧ l.tx.st ≠ .brk
      · have hc' : (({ l with rx := x } : Line).state = .opened ∨ ({ l with rx := x } : Line).draining = true) ∧
            ({ l with rx := x } : Line).tx.st ≠ .brk := hc
        simp only [Line.chooseOutput, ho, hs, if_true, if_pos hc, if_pos hc']
        rfl
      · have hc' : ¬((({ l with rx := x } : Line).state = .opened ∨ ({ l with rx := x } : Line).draining = true) ∧
            ({ l with rx := x } : Line).tx.st ≠ .brk) := hc
        simp only [Line.chooseOutput, ho, hs, if_true, if_neg hc, if_neg hc']
        exact hi
  · simp only [Line.chooseOutput, if_neg ho]

/-- What goes out next does not depend on the receive side. -/
theorem chunkIssued_chooseOutput_tx (l : Line) : l.chunkIssued.chooseOutput.tx = l.chooseOutput.tx := by
  unfold Line.chunkIssued
  split
  · rw [chooseOutput_rx]
  · rfl

theorem readDue_iff (l : Line) (c : TxCurrent) (hc : l.tx.cur = some c) :
    l.readDue = true ↔ l.tx.st = .sending ∧ l.tx.ending = none ∧ l.tx.readInFlight = none ∧ l.tx.fifo.length ≤ 16 ∧
      c.bytesRead < c.record.len := by
  simp [Line.readDue, hc, and_assoc]

/-- Everything `State.requestRead` can do, on a line whose chunk has been issued and whose output has been chosen
(R83). -/
theorem requestRead_eq (s : State) (i : LineNo) (l : Line) (h : s.line i = l.chunkIssued.chooseOutput) :
    s.requestRead i = { s.setLine i (s.line i).readRequested with
      engine := { s.engine with listC := s.engine.listC ++ l.readRequests i } } := by
  have htx := chunkIssued_chooseOutput_tx l
  obtain ⟨hcur, hst, hend, hrd⟩ := chooseOutput_tx l
  rw [← h] at htx
  rw [← htx] at hcur hst hend hrd
  cases hc : l.tx.cur with
  | none =>
    rw [hc] at hcur
    simp only [State.requestRead, hcur, Line.readRequests, hc, Line.readRequested, List.append_nil, setLine_self]
  | some c =>
    rw [hc] at hcur
    have hd := readDue_iff (s.line i) c hcur
    rw [hst, hend, hrd, htx] at hd
    by_cases hr : (s.line i).readDue = true
    · simp only [State.requestRead, hcur, if_pos hr, Line.readRequests, hc, if_pos (hd.1 hr)]
      rfl
    · simp only [State.requestRead, hcur, if_neg hr, Line.readRequests, hc, if_neg (mt hd.2 hr), Line.readRequested,
        List.append_nil, setLine_self]

/-- Everything `State.startFetch` can do (R158). -/
theorem startFetch_eq (s : State) (q : RqNo) : s.startFetch q = { s.setRq q { s.rq q with fetch := true } with
    engine := { s.engine with listD := s.engine.listD ++ [s.fetchRequest q] } } := rfl

theorem setRq_fetch_self (s : State) (q : RqNo) : s.setRq q { s.rq q with fetch := (s.rq q).fetch } = s := by
  have h : s.reqQueues.set q (s.reqQueues[q]) = s.reqQueues := by ext i hi; simp
  show { s with reqQueues := s.reqQueues.set q (s.reqQueues[q]) } = s
  rw [h]

/-- Everything `State.askRpq` can do (R55). -/
theorem askRpq_eq (s : State) (i : LineNo) : s.askRpq i =
    { s.setRq (rpq i) { s.rq (rpq i) with fetch := (s.rq (rpq i)).fetch || (s.line i).asksRpq (s.rq (rpq i)) } with
      engine := { s.engine with
        listD := s.engine.listD ++ if (s.line i).asksRpq (s.rq (rpq i)) then [s.fetchRequest (rpq i)] else [] } } := by
  cases h : (s.line i).asksRpq (s.rq (rpq i))
  · simp only [State.askRpq, h, Bool.or_false, setRq_fetch_self, Bool.false_eq_true, if_false, List.append_nil]
  · simp only [State.askRpq, h, Bool.or_true, if_true, startFetch_eq]

/-- Everything `State.askTxq` can do (R80). -/
theorem askTxq_eq (s : State) (i : LineNo) : s.askTxq i =
    { s.setRq (txq i) { s.rq (txq i) with fetch := (s.rq (txq i)).fetch || (s.line i).asksTxq (s.rq (txq i)) } with
      engine := { s.engine with
        listD := s.engine.listD ++ if (s.line i).asksTxq (s.rq (txq i)) then [s.fetchRequest (txq i)] else [] } } := by
  cases h : (s.line i).asksTxq (s.rq (txq i))
  · simp only [State.askTxq, h, Bool.or_false, setRq_fetch_self, Bool.false_eq_true, if_false, List.append_nil]
  · simp only [State.askTxq, h, Bool.or_true, if_true, startFetch_eq]

/-- Everything `State.askFetches` can do (R55, R80, R122). -/
theorem askFetches_takes (s : State) (i : LineNo) :
    s.askFetches i = { s with
      reqQueues := (s.askFetches i).reqQueues
      engine := { s.engine with listD := s.engine.listD ++ s.lineFetches i (s.line i) } } ∧
    FetchesBegin i (s.line i) s (s.askFetches i) := by
  have hne : txq i ≠ rpq i := txq_ne_rpq i i
  have hq : (s.askRpq i).rq (txq i) = s.rq (txq i) := by rw [askRpq_eq]; exact State.rq_setRq_ne _ _ hne
  have hl : (s.askRpq i).line i = s.line i := by rw [askRpq_eq]; rfl
  have hr : (s.askRpq i).fetchRequest (txq i) = s.fetchRequest (txq i) := by simp only [State.fetchRequest, hq]
  have he : s.askFetches i = { s with
      reqQueues := (s.askFetches i).reqQueues
      engine := { s.engine with listD := s.engine.listD ++ s.lineFetches i (s.line i) } } := by
    rw [State.askFetches, askTxq_eq, hq, hl, hr, askRpq_eq]
    simp only [State.lineFetches, List.append_assoc, State.setRq]
  refine ⟨he, fun q => ?_⟩
  rw [State.askFetches, askTxq_eq, hq, hl]
  by_cases h1 : q = txq i
  · subst h1
    refine (State.rq_setRq_self _ _ _).trans ?_
    simp [hne]
  · refine (State.rq_setRq_ne _ _ h1).trans ?_
    rw [askRpq_eq]
    by_cases h2 : q = rpq i
    · subst h2
      refine (State.rq_setRq_self _ _ _).trans ?_
      simp [Ne.symm hne]
    · refine (State.rq_setRq_ne _ _ h2).trans ?_
      simp [h1, h2]

/-! ### Settling, and a happening of a line -/

/-- Everything `State.settleLine` can do: the line becomes `Line.settled`, its requests join their lists, its two fetches
are asked for by R55 and R80, and everything else is left alone. -/
theorem settleLine_takes (s : State) (i : LineNo) : LineTakes i s (s.settleLine i) (s.line i) := by
  have h1 : ((s.issueChunk i).updLine i Line.chooseOutput).line i = (s.line i).chunkIssued.chooseOutput := by
    rw [State.updLine_line_self, issueChunk_eq]
    exact congrArg _ (State.line_setLine_self _ _ _)
  have h2 := requestRead_eq _ i _ h1
  rw [h1] at h2
  generalize hs1 : ((s.issueChunk i).updLine i Line.chooseOutput).requestRead i = s1 at h2
  have e1 : s1 = { s.setLine i (s.line i).chunkIssued.chooseOutput.readRequested with
      engine := { s.engine with
        listB := s.engine.listB ++ (s.line i).chunkRequests i
        listC := s.engine.listC ++ (s.line i).readRequests i } } := by
    rw [h2, issueChunk_eq]
    simp [State.updLine, State.setLine]
  have hq1 : ∀ q, s1.rq q = s.rq q := fun q => by rw [e1]; rfl
  have ht1 : s1.time = s.time := by rw [e1]; rfl
  have hl1 : s1.line i = (s.line i).chunkIssued.chooseOutput.readRequested := by
    rw [e1]; exact State.line_setLine_self _ _ _
  generalize hs2 : s1.updLine i (fun l =>
    ((l.beginWindUp.markTxDone (s1.rq (txq i))).endDrain).flushStep i s1.time (s1.rq (txq i))) = s2
  have hset : s.settleLine i = s2.askFetches i := by rw [← hs2, ← hs1]; rfl
  have hl2 : s2.line i = (s.line i).settled i s.time (s.rq (txq i)) := by
    rw [← hs2, State.updLine_line_self, hl1, hq1, ht1]; rfl
  have e2 : s2 = { s.setLine i ((s.line i).settled i s.time (s.rq (txq i))) with
      engine := { s.engine with
        listB := s.engine.listB ++ (s.line i).chunkRequests i
        listC := s.engine.listC ++ (s.line i).readRequests i } } := by
    have : s2 = s1.setLine i (s2.line i) := by rw [← hs2, State.updLine_line_self]; rfl
    rw [this, hl2, e1]
    simp [State.setLine]
  have hq2 : ∀ q, s2.rq q = s.rq q := fun q => by rw [e2]; rfl
  obtain ⟨he, hf⟩ := askFetches_takes s2 i
  have hl3 : (s2.askFetches i).line i = s2.line i := by rw [he]; rfl
  rw [hset]
  refine ⟨⟨?_, fun j hj => ?_⟩, hl3.trans hl2, fun q => ?_, ?_⟩
  · rw [he, e2]; rfl
  · rw [he, e2]
    exact ⟨State.line_setLine_ne _ _ hj, rfl⟩
  · rw [hl3, hf q, hq2]
  · rw [hl3, he, e2]
    have : ∀ e : Engine, ({ s.setLine i ((s.line i).settled i s.time (s.rq (txq i))) with engine := e } : State).lineFetches i
        = s.lineFetches i := fun _ => rfl
    simp only [this]

/-- A happening of line `i`: its own effect, and then what follows at once. -/
theorem onLine_takes (s : State) (i : LineNo) (f : Line → Line) : LineTakes i s (s.onLine i f) (f (s.line i)) := by
  have h := settleLine_takes (s.updLine i f) i
  rw [State.updLine_line_self] at h
  exact ⟨(OnlyLine.updLine i s f).trans h.1, h.2⟩

/-- A happening of line `i` at its receive input, which also leaves the level of its pin. -/
theorem setRxd_onLine_takes (s : State) (i : LineNo) (v : Level) (f : Line → Line) :
    LineTakes i s ((s.setRxd i v).onLine i f) (f (s.line i)) := by
  have h := onLine_takes (s.setRxd i v) i f
  exact ⟨(OnlyLine.setRxd i s v).trans h.1, h.2⟩

/-- What a line takes, under another name of the same context. -/
theorem LineTakes.of_eq {i : LineNo} {s t : State} {l l' : Line} (h : LineTakes i s t l) (e : l = l') :
    LineTakes i s t l' := e ▸ h

/-- Settling leaves the levels of the receive pins. -/
theorem settleLine_rxd (s : State) (i : LineNo) : (s.settleLine i).rxd = s.rxd := by
  simp only [State.settleLine, State.askFetches, State.askTxq, State.askRpq, State.requestRead, State.issueChunk,
    State.startFetch, State.updLine, State.setLine, State.setRq, State.request]
  repeat' split
  all_goals rfl

theorem onLine_rxd (s : State) (i : LineNo) (f : Line → Line) : (s.onLine i f).rxd = s.rxd := settleLine_rxd _ i

/-- What `LineTakes` says of a queue that is not the line's. -/
theorem LineTakes.rq_of_ne {i : LineNo} {s t : State} {l : Line} (h : LineTakes i s t l) {q : RqNo} (h1 : q ≠ rpq i)
    (h2 : q ≠ txq i) : t.rq q = s.rq q := by
  rw [h.2.2.1 q]; simp [h1, h2]

theorem LineTakes.rq_rpq {i : LineNo} {s t : State} {l : Line} (h : LineTakes i s t l) : t.rq (rpq i) =
    { s.rq (rpq i) with fetch := (s.rq (rpq i)).fetch || (t.line i).asksRpq (s.rq (rpq i)) } := by
  rw [h.2.2.1]; simp [Ne.symm (txq_ne_rpq i i)]

theorem LineTakes.rq_txq {i : LineNo} {s t : State} {l : Line} (h : LineTakes i s t l) : t.rq (txq i) =
    { s.rq (txq i) with fetch := (s.rq (txq i)).fetch || (t.line i).asksTxq (s.rq (txq i)) } := by
  rw [h.2.2.1]; simp [txq_ne_rpq i i]

/-- Everything that settling the lines of `is` in turn can do. -/
theorem foldl_settleLine (is : List LineNo) (hd : is.Nodup) (s t : State) (ht : t = is.foldl State.settleLine s) :
    t = { s with lines := t.lines, reqQueues := t.reqQueues, engine := t.engine } ∧
    (∀ i, t.line i = if i ∈ is then (s.line i).settled i s.time (s.rq (txq i)) else s.line i) ∧
    t.rq 0 = s.rq 0 ∧
    (∀ i,
      t.rq (rpq i) = { s.rq (rpq i) with
        fetch := (s.rq (rpq i)).fetch || (decide (i ∈ is) && (t.line i).asksRpq (s.rq (rpq i))) } ∧
      t.rq (txq i) = { s.rq (txq i) with
        fetch := (s.rq (txq i)).fetch || (decide (i ∈ is) && (t.line i).asksTxq (s.rq (txq i))) }) ∧
    t.engine = { s.engine with
      listB := s.engine.listB ++ is.flatMap fun i => (s.line i).chunkRequests i
      listC := s.engine.listC ++ is.flatMap fun i => (s.line i).readRequests i
      listD := s.engine.listD ++ is.flatMap fun i => s.lineFetches i (t.line i) } := by
  induction is generalizing s with
  | nil => subst ht; simp
  | cons i is ih =>
    obtain ⟨hi, hd⟩ := List.nodup_cons.1 hd
    have h := settleLine_takes s i
    have hp := settleLine_rxd s i
    rw [List.foldl_cons] at ht
    generalize s.settleLine i = u at h hp ht
    obtain ⟨e, hl, h0, hq, he⟩ := ih hd u ht
    have hu := h.1.1
    have hut : u.time = s.time := by rw [hu]
    have hne : ∀ j, j ≠ i → u.line j = s.line j ∧ u.rq (rpq j) = s.rq (rpq j) ∧ u.rq (txq j) = s.rq (txq j) :=
      fun j hj => ⟨(h.1.2 j hj).1, h.rq_of_ne (rpq_ne_rpq hj) (Ne.symm (txq_ne_rpq i j)),
        h.rq_of_ne (txq_ne_rpq j i) (txq_ne_txq hj)⟩
    have hti : t.line i = u.line i := by rw [hl, if_neg hi]
    have hm : ∀ j ∈ is, j ≠ i := fun j hj e => hi (e ▸ hj)
    refine ⟨?_, fun j => ?_, ?_, fun j => ?_, ?_⟩
    · rw [e, hu, hp]
    · by_cases hj : j = i
      · subst hj; rw [hti, h.2.1]; simp
      · rw [hl, hut, (hne j hj).1, (hne j hj).2.2]; simp [hj]
    · rw [h0, h.rq_of_ne (Ne.symm (rpq_ne_zero i)) (Ne.symm (txq_ne_zero i))]
    · by_cases hj : j = i
      · subst hj
        rw [(hq j).1, (hq j).2, hti, h.rq_rpq, h.rq_txq]
        simp [hi]
      · rw [(hq j).1, (hq j).2, (hne j hj).2.1, (hne j hj).2.2]
        simp [hj]
    · have hB : ∀ j ∈ is, (u.line j).chunkRequests j = (s.line j).chunkRequests j := fun j hj => by
        rw [(hne j (hm j hj)).1]
      have hC : ∀ j ∈ is, (u.line j).readRequests j = (s.line j).readRequests j := fun j hj => by
        rw [(hne j (hm j hj)).1]
      have hD : ∀ j ∈ is, u.lineFetches j (t.line j) = s.lineFetches j (t.line j) := fun j hj => by
        simp only [State.lineFetches, State.fetchRequest, (hne j (hm j hj)).2.1, (hne j (hm j hj)).2.2]
      rw [he, h.2.2.2, List.flatMap_cons, List.flatMap_cons, List.flatMap_cons, ← hti,
        List.flatMap_congr hB, List.flatMap_congr hC, List.flatMap_congr hD]
      simp only [List.append_assoc]

/-- Everything `State.settleAll` can do. -/
theorem settleAll_takes (s : State) : AllLinesTake s s.settleAll s.line := by
  obtain ⟨e, hl, h0, hq, he⟩ := foldl_settleLine (List.finRange 8) (List.nodup_finRange 8) s _ rfl
  refine ⟨e, fun i => (hl i).trans (if_pos (List.mem_finRange i)), h0, fun i => ?_, he⟩
  have := hq i
  simpa [State.settleAll] using this

/-- A command whose meaning is a happening of line `i` completes with that happening. -/
theorem lineTakes_of {c : Instr} {s : State} {i : LineNo} (f : Line → Line) {l : Line}
    (h : exec c s = .next (s.onLine i f)) (hl : f (s.line i) = l) : ∃ t, exec c s = .next t ∧ LineTakes i s t l :=
  ⟨_, h, hl ▸ onLine_takes s i f⟩

/-- A command whose meaning is a happening of line `i` at its receive input, likewise. -/
theorem lineTakes_of_rxd {c : Instr} {s : State} {i : LineNo} (v : Level) (f : Line → Line) {l : Line}
    (h : exec c s = .next ((s.setRxd i v).onLine i f)) (hl : f (s.line i) = l) :
    ∃ t, exec c s = .next t ∧ t.rxd[i] = v ∧ LineTakes i s t l :=
  ⟨_, h, by simp [onLine_rxd, State.setRxd], hl ▸ setRxd_onLine_takes s i v f⟩

end Sys2Proof.Machine
end

