-- ==== Sys2Proof/Laws/Ops.lean ====
section
/-! SUPPORT. What the shared operations over the whole part can do, one lemma each: the head's advance, the taking of a
control request and its answer, the line a request names, an access abandoned, and an entry begun. -/

namespace Sys2Proof.Machine

/-! ### The head's advance and the acceptance of a control record -/

/-- Everything `State.advanceHead` can do. -/
theorem advanceHead_eq (s : State) (q : RqNo) :
    s.advanceHead q = { s with
      reqQueues := (s.setRq q { s.rq q with head := nextSlot (s.rq q).head (s.rq q).size }).reqQueues
      progressWaits := true
      engine := if s.progressWaits then s.engine else
        { s.engine with listA := s.engine.listA ++
          [{ requester := .progress, addr := s.progressAddr
             transfer := .write (progressBytes
               (s.setRq q { s.rq q with head := nextSlot (s.rq q).head (s.rq q).size }).reqQueues) }] } } := by
  cases h : s.progressWaits
  · simp [State.advanceHead, h, State.request, Engine.push, Requester.cls, State.setRq]
  · rcases s with ⟨_, _, _, _, _, _, _, _, _, _, _, _, _, _, _, _, _, _, _, _, _, _, _, _, _, _, _, _, _, _⟩
    simp only at h
    subst h
    rfl

/-- Everything `State.acceptControl` can do. -/
theorem acceptControl_eq (s : State) :
    s.acceptControl = { s with
      reqQueues := (s.setRq 0 { s.rq 0 with head := nextSlot (s.rq 0).head (s.rq 0).size, fetch := false }).reqQueues
      progressWaits := true
      control := { s.control with st := .idle, req := none }
      engine := { s.engine with
        results := s.engine.results.eraseP fun x => x.requester = .fetch 0
        listA := if s.progressWaits then s.engine.listA else s.engine.listA ++
          [{ requester := .progress, addr := s.progressAddr
             transfer := .write (progressBytes (s.setRq 0
               { s.rq 0 with head := nextSlot (s.rq 0).head (s.rq 0).size, fetch := false }).reqQueues) }] } } := by
  rw [State.acceptControl, advanceHead_eq]
  cases h : s.progressWaits <;>
    simp [State.endCtlFetch, State.endFetch, State.setRq, State.dropResult, State.rq, h]

@[simp] theorem acceptControl_line (s : State) (i : LineNo) : s.acceptControl.line i = s.line i := by
  rw [acceptControl_eq]; rfl

@[simp] theorem acceptControl_time (s : State) : s.acceptControl.time = s.time := by rw [acceptControl_eq]

@[simp] theorem acceptControl_windows (s : State) : s.acceptControl.windows = s.windows := by rw [acceptControl_eq]

@[simp] theorem acceptControl_rateTable (s : State) : s.acceptControl.rateTable = s.rateTable := by
  rw [acceptControl_eq]

@[simp] theorem acceptControl_lines (s : State) : s.acceptControl.lines = s.lines := by rw [acceptControl_eq]

@[simp] theorem acceptControl_slot (s : State) : s.acceptControl.control.slot = s.control.slot := by
  rw [acceptControl_eq]

@[simp] theorem acceptControl_st (s : State) : s.acceptControl.control.st = .idle := by rw [acceptControl_eq]

theorem acceptControl_rq_ne (s : State) {q : RqNo} (h : q ≠ 0) : s.acceptControl.rq q = s.rq q := by
  rw [acceptControl_eq]
  exact State.rq_setRq_ne s _ h

/-! ### A control request taken and answered -/

@[simp] theorem answer_line (s : State) (r : List Byte) (st : Status) (i : LineNo) :
    (s.answer r st).line i = s.line i := rfl

@[simp] theorem answer_time (s : State) (r : List Byte) (st : Status) : (s.answer r st).time = s.time := rfl

@[simp] theorem answer_rq (s : State) (r : List Byte) (st : Status) (q : RqNo) : (s.answer r st).rq q = s.rq q := rfl

/-- Everything `State.askCtl` can do (R111, R158). -/
theorem askCtl_eq (s : State) : s.askCtl =
    if s.control.st = .idle ∧ s.control.slot = none ∧ s.part = .running ∧ (s.rq 0).fetchable = true then
      { s.setRq 0 { s.rq 0 with fetch := true } with
        control := { s.control with st := .fetching }
        engine := { s.engine with listD := s.engine.listD ++
          [{ requester := .fetch 0, addr := (s.rq 0).base + BitVec.ofNat 32 (32 * (s.rq 0).head), transfer := .read 32 }] } }
    else s := by
  unfold State.askCtl
  split <;> rfl
/-- Everything the consumer of a queue can do when it is asked (R156, R158). -/
theorem askConsumer_eq (s : State) (q : RqNo) : s.askConsumer q =
    if s.consumerAsks q (s.rq q) = true then
      { s.setRq q { s.rq q with fetch := true } with
        control := { s.control with st := if q = 0 then .fetching else s.control.st }
        engine := { s.engine with listD := s.engine.listD ++ [s.fetchRequest q] } }
    else s := by
  unfold State.askConsumer State.consumerAsks
  have hk : (rqKind q = .ctl → q = 0) ∧ (∀ i, rqKind q = .tx i → q = txq i) ∧
      (∀ i, rqKind q = .rp i → q = rpq i) := by
    revert q; decide
  cases h : rqKind q with
  | ctl =>
    obtain rfl := hk.1 h
    simp only [askCtl_eq]
    simp [Option.isNone_iff_eq_none, and_assoc]
    rfl
  | tx i =>
    obtain rfl := hk.2.1 i h
    simp only [txq_ne_zero, if_false]
    rfl
  | rp i =>
    obtain rfl := hk.2.2 i h
    simp only [rpq_ne_zero, if_false]
    rfl

/-- With a record in its slot the Control Unit asks for no further request. -/
theorem askCtl_of_slot {s : State} (h : s.control.slot ≠ none) : s.askCtl = s := by simp [State.askCtl, h]

/-- While it holds a request the Control Unit asks for no further one. -/
theorem askCtl_of_holding {s : State} (h : s.control.st = .holding) : s.askCtl = s := by simp [State.askCtl, h]

@[simp] theorem askCtl_answer (s : State) (r : List Byte) (st : Status) : (s.answer r st).askCtl = s.answer r st :=
  askCtl_of_slot (by simp [State.answer])

/-- A delivered control record is there to be taken. -/
theorem ctlDelivery_of_delivered {s : State} {r : List Byte} (h : ControlDelivered s r) : s.ctlDelivery = some r := by
  obtain ⟨_, h2, h3, h4, x, hx, hd⟩ := h
  simp [State.ctlDelivery, State.fetchResult?, h3, hx, h2, hd, ReqQueue.isEmpty, h4]

/-- A command that takes control requests takes a delivered record of its own code. -/
theorem takeControl_of_delivered {s : State} {r : List Byte} (h : ControlDelivered s r) (code : Nat → Bool)
    (f : List Byte → State → State) (hc : code (reqCode r).toNat = true) :
    (s.take fun s => s.takeControl code f) = .next (f r s.acceptControl).askCtl := by
  simp [State.take, h.1, State.takeControl, ctlDelivery_of_delivered h, hc, State.takeRequest]

/-! ### The line a request names -/

theorem reqLineNo_of_ge {r : List Byte} (h : 8 ≤ (reqLine r).toNat) : reqLineNo r = none := by
  simp [reqLineNo]; omega

theorem reqLineNo_of_lt {r : List Byte} {i : LineNo} (h : (reqLine r).toNat = i.val)
    (hc : namesLine (reqCode r) = true) : reqLineNo r = some i := by
  have : (reqLine r).toNat < 8 := by omega
  simp [reqLineNo, this, hc]
  exact Fin.ext h

/-! ### An access abandoned, a record given up, an entry begun -/

/-- Everything `State.abandonAccess` can do (R177): the Engine is as at reset, and memory what the abandoned write left. -/
theorem abandonAccess_eq (s : State) : ∃ m n,
    s.abandonAccess = { s with mem := m, freeNext := n, engine := Engine.reset } ∧
      AbandonsAccess s { s with mem := m, freeNext := n, engine := Engine.reset } := by
  simp only [State.abandonAccess, State.landWrite]
  cases ha : s.engine.access with
  | none => exact ⟨_, _, rfl, fun _ => ⟨rfl, rfl⟩, fun a bs h => by simp [ha] at h⟩
  | some a =>
    cases ht : a.request.transfer with
    | read n =>
      simp only [ht]
      exact ⟨_, _, rfl, fun _ => ⟨rfl, rfl⟩, fun a' bs h h2 => by rw [ha] at h; cases h; rw [ht] at h2; cases h2⟩
    | write bs =>
      simp only [ht]
      refine ⟨_, _, rfl, fun h => absurd ht (h a bs ha), fun a' bs' h h2 => ?_⟩
      rw [ha] at h; cases h; rw [ht] at h2; cases h2
      exact ⟨fun x hx => memRead_memLandBytes_outside _ _ _ _ _ hx, rfl,
        fun k hk => memRead_memLandBytes_inside _ _ _ _ _ hk⟩

/-- Everything that follows when producer `p` gives its admitted record up (R139). -/
theorem settleProducer_giveUp (u : State) (p : Producer) : GivesUp p u ((u.giveUp p).settleProducer p) := by
  cases p with
  | rxSlot i => exact onLine_takes u i _
  | txSlot i => exact onLine_takes u i _
  | events i => exact onLine_takes u i _
  | control => rfl

@[simp] theorem setCq_self (s : State) (c : CqNo) : s.setCq c (s.cq c) = s := by
  have h : s.cplQueues.set c (s.cplQueues[c]) = s.cplQueues := by ext i hi; simp
  show { s with cplQueues := s.cplQueues.set c (s.cplQueues[c]) } = s
  rw [h]

/-- Everything `State.beginEntry` can do in RUNNING and STOPPING (R135). -/
theorem beginEntry_eq (s : State) (c : CqNo) (h : s.reporting = true) : s.beginEntry c =
    { s.setCq c { s.cq c with
        write := if (s.cq c).staging ≠ [] ∧ (s.cq c).write = .noWrite ∧ (s.cq c).isFull = false then .body
          else (s.cq c).write } with
      engine := { s.engine with listA := s.engine.listA ++ bodyRequests c (s.cq c) } } := by
  have self := setCq_self s c
  unfold State.beginEntry bodyRequests
  generalize s.cq c = x at self
  rcases hst : x.staging with _ | ⟨e, es⟩
  · have : ({ x with staging := [], write := x.write } : CplQueue) = x := by rw [← hst]
    simp only [hst, ne_eq, not_true_eq_false, false_and, if_false, this, List.append_nil]
    exact self.symm
  · by_cases hc : x.write = .noWrite ∧ x.isFull = false
    · simp [hst, hc, h, State.request, Engine.push, Requester.cls, Completion.bodyBytes, State.setCq, CplQueue.tailAddr]
    · have hn : ¬ (x.write = .noWrite ∧ x.isFull = false ∧ s.reporting = true) := fun hh => hc ⟨hh.1, hh.2.1⟩
      have : ({ x with staging := e :: es, write := x.write } : CplQueue) = x := by rw [← hst]
      simp only [hst, hn, hc, if_false, and_false, List.append_nil, this]
      exact self.symm

end Sys2Proof.Machine
end

