-- ==== Sys2Proof/Tests/Slice0.lean ====
section
/-! SUPPORT. The tests: ill-formed terms are refused, each command does on a small state what the manual's text and its
worked examples say, and every statement with hypotheses has a state that meets them. Expected values come from the
manual; each test names its place. -/

namespace Sys2Proof.Tests
open Sys2Proof Sys2Proof.Machine

-- One theorem after another: many kernel evaluations at once reserve more memory than the check allows.
set_option Elab.async false

/-! ### Helpers -/

/-- The state a command answers. -/
def after (c : Instr) (s : State) : State :=
  match exec c s with
  | .next t => t
  | _ => s

/-- A record of `n` bytes, 0 but for the bytes given by their places. -/
def bytes (n : Nat) (fs : List (Nat × Byte)) : List Byte := fs.foldl (fun r f => r.set f.1 f.2) (List.replicate n 0)

/-- A RUNNING part: the two windows of the example of section 10.1, request rings of size 16, completion rings of size 8
with threshold 6 and moderation delay 200 µs. -/
def run0 : State :=
  { State.reset with
    part := .running, run := true
    windows := [{ base := 0x10000, len := 0x1000, read := true, write := true },
      { base := 0x10800, len := 0x1000, read := true, write := false }] ++ List.replicate 6 Window.unused
    reqQueues := Vector.replicate 17 { ReqQueue.reset with base := 0x42000, size := some 16 }
    cplQueues := Vector.replicate 4 { CplQueue.reset with base := 0x50000, size := some 8, threshold := 6, delay := 200 }
    progressAddr := 0x60000 }

/-- The RUNNING part with a line 0. -/
def withLine0 (l : Line) : State := run0.setLine 0 l

/-- A line OPEN in frame 8N1 at divisor 160, with the receive side `rx` and the transmit side `tx`. -/
def openLine (rx : RxSide) (tx : TxSide) : Line :=
  { Line.reset with
    state := .opened, divisor := 160, set := { Settings.reset with boundCq := 1, gap := 4 }
    rx := rx, tx := tx }

/-- An OPEN line with its assembler in HUNT and nothing else. -/
def open0 : Line := openLine { RxSide.reset with asm := .hunt } TxSide.reset

/-- A result of a requester waits to be taken. -/
def withResult (s : State) (w : Requester) (data : Option (List Byte)) : State :=
  { s with engine := { s.engine with results := [{ requester := w, addr := 0x8000, data := data }] } }

/-- A control record has been delivered to the Control Unit. -/
def delivered (s : State) (r : List Byte) : State :=
  { withResult (s.setRq 0 { s.rq 0 with tail := 1, fetch := true }) (.fetch 0) (some r) with
    control := { ControlUnit.reset with st := .fetching } }

/-- A control record: its code, its line number, its tag's low byte and the bytes given by their places. -/
def ctl (code line tag : Byte) (fs : List (Nat × Byte)) : List Byte := bytes 32 ([(0, code), (1, line), (2, tag)] ++ fs)

/-- A buffer record of length `len`. -/
def buf (tag : Half) (len : Nat) (c : BufCond) : RxBuf := { addr := 0x10000, len := len, tag := tag, cond := c }

/-- A started condition without an error. -/
def clean (n : Nat) : BufCond := .started n ErrorSet.empty none

/-- An OPEN line whose front record is `b`, with the delimiters and the held bytes given. -/
def receiving (b : RxBuf) (ds : List Delim) (hold : List Byte) (fifo : List FifoEntry) : Line :=
  openLine { RxSide.reset with asm := .hunt, bufs := [b], delims := ds, hold := hold, fifo := fifo } TxSide.reset

/-- The body of the completion record in a place. -/
def bodyOf (c : Option Completion) : Option CplBody := c.map Completion.body

/-- The answer in the control pending slot. -/
def answerOf (s : State) : Option CplBody := bodyOf s.control.slot

/-- The delimiter table of the example of section 4.6. -/
def table46 : List Delim :=
  [{ bytes := [0x0D, 0x0A], action := .dropAndClose }, { bytes := [0x0A], action := .keepAndClose },
    { bytes := [0x1B, 0x1B], action := .drop }]

/-- A clean CHARACTER entry. -/
def chr (v : Byte) : FifoEntry := .char v false false false

/-- A transmit record. -/
def txRecord (tag : Half) (len : Nat) (quiet breakAfter : Bool) : TxRecord :=
  { addr := 0x10000, len := len, tag := tag, quiet := quiet, breakAfter := breakAfter }

/-- An OPEN line that sends a record. -/
def sending (st : TxState) (o : Output) (c : TxCurrent) (fifo : List Byte) (ending : Option Status) : Line :=
  openLine { RxSide.reset with asm := .hunt }
    { TxSide.reset with st := st, output := o, cur := some c, fifo := fifo, ending := ending }

/-- The bits of 0x33 in frame 8N1, start bit first. -/
def bits33 : List Bool := [false, true, true, false, false, true, true, false, false, true]

/-- The bits of 'T' with EVEN parity as TRIAL samples them: 0xD4 (section 3.6). -/
def bitsD4 : List Bool := [false, false, false, true, false, true, false, true, true, true]

/-- The bits of 'A' with EVEN parity as TRIAL samples them: 0x41 (section 3.6). -/
def bits41 : List Bool := [false, true, false, false, false, false, false, true, false, true]

/-- The settings of line 4 in the example of section 3.6. -/
def settings36 : Settings :=
  { Settings.reset with
    boundCq := 2, trial1 := 0x41, trial2 := 0x54, seekWindow := 9, attemptLimit := 3, discTimeout := 2000, keepTrial := true }

/-- The rate table of the example of section 3.6. -/
def rates36 : List RateEntry :=
  [{ divisor := 1920, min := 1800, max := 2040 }, { divisor := 160, min := 150, max := 170 }]

/-- The RUNNING part with that table and a line in discovery. -/
def discovering (st : LineState) (asm : AsmState) (d : Discovery) : State :=
  { run0.setLine 4 { Line.reset with
      state := st, set := settings36, disc := d, rx := { RxSide.reset with asm := asm } } with rateTable := rates36 }

/-- A closing line, with its phase, its pending long request and its places. -/
def closingLine (m : CloseMode) (p : ClosePhase) (long : PendingLong) (rx : RxSide) (tx : TxSide) : Line :=
  { openLine rx tx with state := .closing, long := long, close := { CloseSide.reset with mode := some m, phase := some p } }

/-- A completion record. -/
def someCpl (dest : CqNo) : Completion := { dest := dest, time := 0, body := .breakIdle 2 }

/-- A staged record. -/
def staged1 : Staged := { producer := .events 7, record := someCpl 1 }

/-- CMQ1 of the example of section 8.8, with the entry write in progress as given. -/
def cq88 (head tail : Nat) (n : Nat) (waiting : List Producer) (w : EntryWrite) (notif : Notification) : CplQueue :=
  { base := 0x50000, size := some 8, tail := tail, phase := true, head := head
    staging := List.replicate n staged1, waiting := waiting, write := w, notif := notif
    threshold := 6, delay := 200, timer := none }

/-- A request of the Memory Engine. -/
def req (w : Requester) (a : Word) (t : Transfer) : Request := { requester := w, addr := a, transfer := t }

/-- An access in progress. -/
def inProgress (r : Request) : Access := { request := r, began := 0, deliver := true }

/-- A part with an access in progress. -/
def accessing (s : State) (r : Request) : State := { s with engine := { s.engine with access := some (inProgress r) } }

/-! ### Ill-formed terms are refused -/

/-- A full write of SETUP_ADDR is no ignored write (R152). -/
theorem test_wf_refuses_write_of_a_register : (Instr.registerWriteIgnored 0x08 false 0).wf = false := by decide
theorem test_wf_refuses_write_of_control : (Instr.registerWriteIgnored 0x00 false 1).wf = false := by decide
theorem test_wf_refuses_write_of_post : (Instr.registerWriteIgnored 0x0C false 1).wf = false := by decide
theorem test_wf_refuses_write_of_retire : (Instr.registerWriteIgnored 0x10 false 1).wf = false := by decide
theorem test_wf_takes_narrow_write : (Instr.registerWriteIgnored 0x08 true 0).wf = true := by decide
/-- Six bits are no character (R18). -/
theorem test_wf_refuses_short_character : (Instr.characterCompletes 0 [false, true, true, true, true, true]).wf = false := by
  decide
theorem test_wf_refuses_long_character : (Instr.characterCompletes 0 (false :: List.replicate 12 true)).wf = false := by decide
/-- A start bit at mark is no start bit (R20). -/
theorem test_wf_refuses_start_at_mark : (Instr.characterCompletes 0 (List.replicate 10 true)).wf = false := by decide
/-- Ten bits at space are a break (R22). -/
theorem test_wf_refuses_break_as_character : (Instr.characterCompletes 0 (List.replicate 10 false)).wf = false := by decide
theorem test_wf_takes_late_reply : (Instr.busResponse .late).wf = true := by decide
theorem test_wf_refuses_long_reply : (Instr.busResponse (.normal (List.replicate 273 0))).wf = false := by decide +kernel

/-! ### The pins, the register window, the Time Base -/

/-- R190. -/
theorem test_pin_reset : (after .pinReset { run0 with time := 5 }).time = 0 ∧
    (after .pinReset { run0 with time := 5 }).resetHeld = true ∧ (after .pinReset run0).part = .stopped := by decide +kernel

theorem test_pin_reset_release : after .pinResetRelease { State.reset with resetHeld := true } = State.reset := by
  decide +kernel

/-- R181: the read of 272 bytes that ends at 0xFFFFFFFF is made. -/
theorem test_run_1_at_the_edge :
    (after .runWritten1 { State.reset with setupAddr := 0xFFFFFEF0 }).engine.access =
      some (inProgress (req .setupRead 0xFFFFFEF0 (.read 272))) := by decide +kernel

/-- R181: the read that would run past it is not. -/
theorem test_run_1_past_the_edge :
    (after .runWritten1 { State.reset with setupAddr := 0xFFFFFEF1 }).part = .stopped ∧
      (after .runWritten1 { State.reset with setupAddr := 0xFFFFFEF1 }).cause = .setupInvalid := by decide +kernel

/-- R170: after LOADING no access of before is in progress, and the Setup Record read is granted. -/
theorem test_run_1_abandons_an_access :
    (after .runWritten1 (accessing State.reset (req .reportWrite 0x10 (.write [7])))).engine.access =
      some (inProgress (req .setupRead 0 (.read 272))) := by decide +kernel

/-- R185, R16. -/
theorem test_run_0_closes_the_lines :
    (after .runWritten0 (withLine0 open0)).part = .stopping ∧
      ((after .runWritten0 (withLine0 open0)).line 0).state = .closing ∧
      (after .runWritten0 (withLine0 open0)).stopLimit = some 100000 := by decide +kernel

/-- R191: the cause and FAULT_ADDR are kept. -/
theorem test_soft_reset_keeps_the_cause :
    (after (.softReset true) { run0 with cause := .controlFetch, faultAddr := 7, setupAddr := 9 }).cause = .controlFetch ∧
      (after (.softReset true) { run0 with cause := .controlFetch, faultAddr := 7, setupAddr := 9 }).setupAddr = 0 := by
  decide +kernel

theorem test_soft_reset_waits :
    (after .softResetTakesEffect { run0 with softPending := true }).part = .stopped ∧
      (after (.softReset false) (accessing run0 (req .tableRead 0 (.read 8)))).softPending = true := by decide +kernel

/-- R179: FAULTED (4), COMPLETION_WRITE (3) in bits 6 to 4, DISCARDED and POST_REJECTED in bits 8 and 9. -/
theorem test_status_read :
    (after .statusRead { State.reset with
      part := .faulted, cause := .completionWrite, discarded := true, postRejected := true }).readData = 0x334#32 ∧
      (after .statusRead { State.reset with postRejected := true }).postRejected = false := by decide +kernel

/-- R153. -/
theorem test_setup_addr_stored_when_stopped :
    (after (.setupAddrWrite 0x1234) State.reset).setupAddr = 0x1234 ∧ (after (.setupAddrWrite 0x1234) run0).setupAddr = 0 := by
  decide +kernel

/-- The example of section 9.6: a tail at the ring's size is rejected. -/
theorem test_post_tail_at_size_is_rejected :
    (after (.post 14 16) run0).postRejected = true ∧ ((after (.post 14 16) run0).rq 14).tail = 0 := by decide +kernel

/-- R156: queue 14 is RPQ5, whose OPEN line asks for the record at its head; an entry of CTLQ is 32 bytes (section 9.2). -/
theorem test_post_starts_a_fetch :
    ((after (.post 14 3) (run0.setLine 5 open0)).rq 14).tail = 3 ∧
      (after (.post 14 3) (run0.setLine 5 open0)).engine.listD = [req (.fetch 14) 0x42000 (.read 16)] ∧
      (after (.post 0 3) (run0.setRq 0 { run0.rq 0 with head := 2 })).engine.listD = [req (.fetch 0) 0x42040 (.read 32)] := by
  decide +kernel

/-- R145: the notification stays. -/
theorem test_retire_without_arm :
    ((after (.retire 1 3) (run0.setCq 1 (cq88 0 7 8 [] .noWrite .asserted))).cq 1).notif = .asserted := by decide +kernel

/-- The example of section 8.8, step 1. -/
theorem test_retire_arm_step_1 :
    ((after (.retireArm 1 3) (run0.setCq 1 (cq88 0 7 8 [] .noWrite .asserted))).cq 1).timer = some 200 ∧
      ((after (.retireArm 1 3) (run0.setCq 1 (cq88 0 7 8 [] .noWrite .asserted))).cq 1).write = .body := by decide +kernel

/-- The example of section 8.8, step 6: seven entries are retired, the queue is ARMED and the timer stopped. -/
theorem test_retire_arm_step_6 :
    ((after (.retireArm 1 2) (run0.setCq 1 (cq88 3 2 0 [] .noWrite .asserted))).cq 1).notif = .armed ∧
      ((after (.retireArm 1 2) (run0.setCq 1 (cq88 3 2 0 [] .noWrite .asserted))).cq 1).timer = none := by decide +kernel

/-- R152. -/
theorem test_ignored_write : after (.registerWriteIgnored 0x20 false 1) run0 = run0 := by decide +kernel

/-- R154: the count wraps. -/
theorem test_microsecond :
    (after .microsecondCountRises { run0 with time := 0xFFFFFFFF, stopLimit := some 2 }).time = 0 ∧
      (after .microsecondCountRises { run0 with stopLimit := some 2 }).stopLimit = some 1 := by decide +kernel

/-! ### Control requests -/

/-- R119: NOP, tag 1. -/
theorem test_nop : answerOf (after .nop (delivered run0 (ctl 0 0 1 []))) = some (.controlDone 0 none 1 .ok) ∧
    ((after .nop (delivered run0 (ctl 0 0 1 []))).rq 0).head = 1 := by decide +kernel

/-- R112: code 11. -/
theorem test_unassigned_code :
    answerOf (after .unassignedRequestCode (delivered run0 (ctl 11 0 1 []))) = some (.controlDone 11 none 1 .badRequest) := by
  decide +kernel

/-- R36: a table of 2 entries at 0x10000 is read, 16 bytes; one of 13 entries is refused. -/
theorem test_set_rate_table :
    (after .setRateTable (delivered run0 (ctl 1 0 1 [(4, 2), (10, 1)]))).engine.listD =
        [req .tableRead 0x10000 (.read 16)] ∧
      answerOf (after .setRateTable (delivered run0 (ctl 1 0 1 [(4, 13), (10, 1)]))) =
        some (.controlDone 1 none 1 .badParam) := by decide +kernel

/-- An OPEN_LINE of line 0, FIXED, 7 data bits, EVEN, 2 stop bits, divisor 32, the least the ranges of R120 allow. -/
def openFixed : List Byte :=
  ctl 2 0 1 [(5, 7), (6, 1), (7, 2), (8, 32), (10, 1), (12, 0x13), (13, 0x11), (15, 1), (19, 2), (21, 1), (24, 4)]

/-- An OPEN_LINE of line 0, DISCOVER, with the pair of section 3.6. -/
def openDiscover : List Byte :=
  ctl 2 0 1 [(4, 1), (10, 3), (12, 0x13), (13, 0x11), (14, 30), (15, 31), (19, 2), (21, 2), (22, 0x41), (23, 0x54), (24, 64),
    (26, 0xD0), (27, 7)]

/-- R122: FIXED. -/
theorem test_open_fixed :
    ((after .openLine (delivered run0 openFixed)).line 0).state = .opened ∧
      ((after .openLine (delivered run0 openFixed)).line 0).frame = { dataBits := 7, parity := .even, stopBits := 2 } ∧
      ((after .openLine (delivered run0 openFixed)).line 0).divisor = 32 := by decide +kernel

/-- R39, R121: DISCOVER with a discovery timeout of 2000 ms, and without a rate table. -/
theorem test_open_discover :
    ((after .openLine (delivered { run0 with rateTable := rates36 } openDiscover)).line 0).disc.timer = some 2000000 ∧
      answerOf (after .openLine (delivered run0 openDiscover)) = some (.controlDone 2 (some 0) 1 .noRateTable) := by
  decide +kernel

/-- A MODIFY_LINE of line 0 that selects the high mark 10, and a line with low mark 12. -/
def modifyHigh : List Byte := ctl 3 0 2 [(4, 2), (6, 10)]
def marks12 : Line := { open0 with set := { open0.set with lowMark := 12, highMark := 24 } }

/-- The example of section 7.9, tag 2. -/
theorem test_modify_high_mark_below_low :
    answerOf (after .modifyLine (delivered (withLine0 marks12) modifyHigh)) = some (.controlDone 3 (some 0) 2 .badParam) := by
  decide +kernel

/-- R33, R124: gap 0 stops the gap timer. -/
theorem test_modify_gap_zero :
    ((after .modifyLine (delivered (withLine0 { open0 with rx := { open0.rx with gapTimer := some 9 } })
      (ctl 3 0 2 [(4, 1)]))).line 0).rx.gapTimer = none := by decide +kernel

/-- The block of the third example of section 4.6: 0x03 with KEEP_AND_CLOSE, and the line that holds CR. -/
def delims03 : List Byte := ctl 4 0 1 [(4, 1), (8, 1), (9, 0), (10, 3)]
def getCr : Line :=
  receiving (buf 0x10 20 (clean 3)) [{ bytes := [0x0D, 0x0A], action := .dropAndClose }] [0x0D] []

/-- The third example of section 4.6: the held CR is released as data and the buffer stays open. -/
theorem test_set_delimiters_mid_message :
    ((after .setDelimiters (delivered (withLine0 getCr) delims03)).line 0).stored = 4 ∧
      ((after .setDelimiters (delivered (withLine0 getCr) delims03)).line 0).rx.hold = [] ∧
      ((after .setDelimiters (delivered (withLine0 getCr) delims03)).line 0).rx.delims =
        [{ bytes := [3], action := .keepAndClose }] := by decide +kernel

/-- R66: "a" is a prefix of "ab". -/
theorem test_set_delimiters_conflict :
    answerOf (after .setDelimiters (delivered (withLine0 open0)
      (ctl 4 0 1 [(4, 2), (8, 1), (10, 0x61), (14, 2), (16, 0x61), (17, 0x62)]))) =
      some (.controlDone 4 (some 0) 1 .delimiterConflict) := by decide +kernel

/-- An OPEN line with the settings of section 3.6 and a started buffer. -/
def open36 : Line := { receiving (buf 0x10 20 (clean 3)) [] [] [chr 0x41] with set := settings36 }

/-- R76, R126: the started buffer closes with RATE_CHANGE and the FIFO is discarded. -/
theorem test_rediscover :
    ((after .rediscover (delivered { withLine0 open36 with rateTable := rates36 } (ctl 5 0 1 []))).line 0).state = .seek ∧
      bodyOf ((after .rediscover (delivered { withLine0 open36 with rateTable := rates36 } (ctl 5 0 1 []))).line 0).rx.slot =
        some (.rxDone 0 0x10 3 .rateChange ErrorSet.empty none none) ∧
      ((after .rediscover (delivered { withLine0 open36 with rateTable := rates36 } (ctl 5 0 1 []))).line 0).counters.flushedEntries
        = 1 := by decide +kernel

/-- Record 0x0700 of the example of section 5.6, its last character on the output. -/
def lastOf0700 : Line := sending .sending (.data bits33) { record := txRecord 0x700 5 true false, bytesRead := 5, bytesSent := 4 } [] none

/-- The part of that example: TXQ with head 10 and tail 13. -/
def part56 (l : Line) : State := (withLine0 l).setRq (txq 0) { run0.rq 1 with head := 10, tail := 13 }

/-- The example of section 5.6, order 2: the boundary is 13, and the record ends ABORTED once its character has been sent. -/
theorem test_flush_tx :
    ((after .flushTx (delivered (part56 lastOf0700) (ctl 6 0 0 [(3, 0x0E)]))).line 0).tx.flushBoundary = some 13 ∧
      ((after .flushTx (delivered (part56 lastOf0700) (ctl 6 0 0 [(3, 0x0E)]))).line 0).long = .flushTx 0x0E00 ∧
      ((after .flushTx (delivered (part56 lastOf0700) (ctl 6 0 0 [(3, 0x0E)]))).line 0).tx.ending = some .aborted := by
  decide +kernel

/-- R75: held bytes are stored, then the buffer closes with FLUSHED. -/
theorem test_flush_rx :
    bodyOf ((after .flushRx (delivered (withLine0 getCr) (ctl 7 0 1 []))).line 0).rx.slot =
      some (.rxDone 0 0x10 4 .flushed ErrorSet.empty none none) := by decide +kernel

/-- R127 against R29 and R62: with the FIFO empty and no started buffer a free value says whether the loss flags stay. -/
def lossOnly : Line := openLine { RxSide.reset with asm := .hunt, lossPending := true, lossCarried := true } TxSide.reset
theorem test_flush_rx_of_an_empty_fifo : lossOnly.flushRx 0 5 = if Config.emptyFlushClears 0 5 then
    openLine { RxSide.reset with asm := .hunt } TxSide.reset else lossOnly := by
  rw [Line.flushRx, if_pos (by decide +kernel), show lossOnly.discardFifo = openLine { RxSide.reset with asm := .hunt }
    TxSide.reset by decide +kernel]

/-- The line of the example of section 1.4 in its drain: record 0x0041 stalled with 12 of 80 bytes sent. -/
def stalled : Line :=
  { closingLine .graceful .drain (.closeLine .graceful 0x900)
      { RxSide.reset with bufs := [buf 0x100 40 (clean 23), buf 0x101 40 .waiting], hold := [0x0D] }
      { TxSide.reset with
        st := .sending, cur := some { record := txRecord 0x41 80 false false, bytesRead := 32, bytesSent := 12 } } with
    flow := { Flow.reset with peerPaused := true }, set := { Settings.reset with flowMode := .inband } }

/-- The example of section 1.4: CLOSE IMMEDIATE 0x0901. -/
theorem test_close_immediate_overtakes :
    ((after .closeLine (delivered (withLine0 stalled) (ctl 8 0 1 [(3, 9), (4, 1)]))).line 0).long = .twoCloses 0x900 0x901 ∧
      bodyOf ((after .closeLine (delivered (withLine0 stalled) (ctl 8 0 1 [(3, 9), (4, 1)]))).line 0).tx.slot =
        some (.txDone 0 0x41 12 .aborted) ∧
      ((after .closeLine (delivered (withLine0 stalled) (ctl 8 0 1 [(3, 9), (4, 1)]))).line 0).rx.hold = [] := by decide +kernel

/-- The example of section 7.9, tag 6. -/
theorem test_close_graceful_twice :
    answerOf (after .closeLine (delivered (withLine0 stalled) (ctl 8 0 6 []))) =
      some (.controlDone 8 (some 0) 6 .lineBusy) := by decide +kernel

/-- R131, R133: a report to 0x10FC0, the last place of window 0, and CLEAR. -/
def query : List Byte := ctl 9 0 5 [(4, 1), (8, 0xC0), (9, 0x0F), (10, 1)]
theorem test_query_line :
    (after .queryLine (delivered (withLine0 stalled) query)).control.st = .holding ∧
      ((after .queryLine (delivered (withLine0 stalled) query)).engine.listD.map fun r => r.addr) = [0x10FC0] ∧
      stalled.report.take 6 = [4, 0, 2, 1, 0x05, 0xFF] := by decide +kernel

/-- R131: the report of 64 bytes that leaves the window is refused. -/
theorem test_query_line_past_the_window :
    answerOf (after .queryLine (delivered (withLine0 stalled) (ctl 9 0 5 [(8, 0xC8), (9, 0x0F), (10, 1)]))) =
      some (.controlDone 9 (some 0) 5 .addressFault) := by decide +kernel

/-- The example of section 9.6: RPQ5 halted at head 6 with tail 3, and its RESTART_QUEUE. -/
def halted14 : State := (run0.setLine 5 open0).setRq 14 { run0.rq 14 with size := some 8, head := 6, tail := 3, halted := true }
theorem test_restart_queue :
    ((after .restartQueue (delivered halted14 (ctl 10 0 1 [(4, 14)]))).engine.listD.map fun r => r.addr) = [0x42060] ∧
      ((after .restartQueue (delivered halted14 (ctl 10 0 1 [(4, 14)]))).rq 14).head = 6 ∧
      answerOf (after .restartQueue (delivered halted14 (ctl 10 0 1 [(4, 13)]))) =
        some (.controlDone 10 none 1 .queueState) := by decide +kernel

/-! ### Happenings on a line -/

/-- A line as in the first example of section 2.7, with its FIFO full. -/
def full27 (asm : AsmState) : Line :=
  { openLine { RxSide.reset with asm := asm, fifo := List.replicate 32 (chr 0x30), gapArmed := true } TxSide.reset with
    counters := { Counters.reset with rxChars := 1002 } }

/-- Section 2.7. First example: 0x33 is lost, and the gap timer restarts with 6400 ticks. Third example: a PAUSE with its
parity bit inverted joins the FIFO. -/
theorem test_character_in_open :
    ((after (.characterCompletes 0 bits33) (withLine0 (full27 .frame))).line 0).counters.overruns = 1 ∧
      ((after (.characterCompletes 0 bits33) (withLine0 (full27 .frame))).line 0).rx.gapTimer = some 6400 ∧
      ((after (.characterCompletes 0 [false, true, true, false, false, true, false, false, true, true])
        (withLine0 { openLine { RxSide.reset with asm := .frame } TxSide.reset with
          frame := { dataBits := 7, parity := .odd, stopBits := 1 }
          set := { Settings.reset with flowMode := .inband } })).line 0).rx.fifo = [.char 0x13 true false false] := by
  decide +kernel

/-- Section 3.6: 'T' in step, and the frame 7 data bits, EVEN, 1 stop bit. -/
theorem test_trial_succeeds :
    ((after (.characterCompletes 4 bitsD4) (discovering .trial .frame
      { Discovery.reset with candidate := some 0, held := [0x41], window := some 384000 })).line 4).rx.fifo =
        [chr 0x41, chr 0x54] ∧
    ((after (.characterCompletes 4 bitsD4) (discovering .trial .frame
      { Discovery.reset with candidate := some 0, held := [0x41], window := some 384000 })).line 4).events.map Completion.body =
        [.rateFound 4 0 { dataBits := 7, parity := .even, stopBits := 1 } 1920] := by decide +kernel

/-- The example of section 2.7: the BREAK marker is lost. -/
theorem test_break_lost :
    ((after (.breakBegins 0) (withLine0 (full27 .frame))).line 0).counters.overruns = 1 ∧
      ((after (.breakBegins 0) (withLine0 (full27 .frame))).line 0).counters.breaks = 1 ∧
      ((after (.breakBegins 0) (withLine0 (full27 .frame))).line 0).rx.gapTimer = none := by decide +kernel

theorem test_break_ends :
    ((after (.breakEnds 0) (withLine0 (full27 .brk))).line 0).rx.gapTimer = some 6400 ∧
      ((after (.breakEnds 0) (withLine0 (full27 .brk))).line 0).rx.asm = .hunt := by decide +kernel

/-- Section 3.6: the ninth interval; the shortest is 1915. -/
theorem test_window_evaluated :
    ((after (.lowInterval 4 5762) (discovering .seek .idle
      { Discovery.reset with intervals := 8, shortest := some 1915, measuring := true })).line 4).state = .trial ∧
    ((after (.lowInterval 4 5762) (discovering .seek .idle
      { Discovery.reset with intervals := 8, shortest := some 1915, measuring := true })).line 4).disc.window =
        some 384000 := by decide +kernel

/-- Section 3.6: a spike of 7 ticks. -/
theorem test_spike_ignored :
    ((after (.lowInterval 4 7) (discovering .seek .idle
      { Discovery.reset with intervals := 1, shortest := some 5759, measuring := true })).line 4).disc.intervals = 1 := by
  decide +kernel

/-- The second example of section 2.7: the expiry first. -/
theorem test_gap_marker_joins :
    ((after (.gapTimerExpiry 0) (withLine0 (openLine { RxSide.reset with
      asm := .hunt, fifo := [chr 0x4F, chr 0x4B], gapArmed := true, gapTimer := some 38400 } TxSide.reset))).line 0).rx.fifo =
      [chr 0x4F, chr 0x4B, .gap false] := by decide +kernel

/-- The first example of section 2.7: the GAP marker is not placed. -/
theorem test_gap_marker_not_placed :
    ((after (.gapTimerExpiry 0) (withLine0 { full27 .hunt with
      rx := { (full27 .hunt).rx with gapTimer := some 6400 } })).line 0).rx.fifo.length = 32 := by decide +kernel

/-- R50. -/
theorem test_discovery_timeout :
    ((after (.discoveryTimeoutExpiry 4) (discovering .seek .idle
      { Discovery.reset with attempts := 2, timer := some 0 })).line 4).close.failure = some (.timeout, 2) := by decide +kernel

/-- R43: the third failed attempt of three. -/
theorem test_trial_window :
    ((after (.trialWindowExpiry 4) (discovering .trial .hunt
      { Discovery.reset with attempts := 2, candidate := some 0, window := some 9 })).line 4).close.failure =
      some (.attempts, 3) := by decide +kernel

/-- R7: the mode stays GRACEFUL. -/
theorem test_drain_limit :
    ((after (.drainLimitExpiry 0) (withLine0 { stalled with
      close := { stalled.close with drainTimer := some 0 } })).line 0).close.mode = some .graceful ∧
      bodyOf ((after (.drainLimitExpiry 0) (withLine0 { stalled with
        close := { stalled.close with drainTimer := some 0 } })).line 0).tx.slot = some (.txDone 0 0x41 12 .aborted) := by
  decide +kernel

/-- R105. -/
theorem test_pause_limit :
    ((after (.pauseLimitExpiry 0) (withLine0 { open0 with
      flow := { Flow.reset with peerPaused := true, timer := some 0 } })).line 0).events.map Completion.body =
      [.pauseExpired 0] := by decide +kernel

/-- The example of section 5.5: record 0x0050 ends OK with 40 bytes sent. -/
def breaking : Line := { sending .brk .brk { record := txRecord 0x50 40 false true, bytesRead := 40, bytesSent := 40 } [] none with
  tx := { (sending .brk .brk { record := txRecord 0x50 40 false true, bytesRead := 40, bytesSent := 40 } [] none).tx with
    breakTimer := some 3200 } }
theorem test_break_timer :
    bodyOf ((after (.breakTimerExpiry 0) (withLine0 breaking)).line 0).tx.slot = some (.txDone 0 0x50 40 .ok) ∧
      ((after (.breakTimerExpiry 0) (withLine0 breaking)).line 0).tx.output = .mark := by decide +kernel

/-- The example of section 5.5: the last byte enters TX_BREAK for 3200 ticks. -/
theorem test_last_byte_enters_break :
    ((after (.dataCharacterSent 0) (withLine0 (sending .sending (.data bits33)
      { record := txRecord 0x50 40 false true, bytesRead := 40, bytesSent := 39 } [] none))).line 0).tx.breakTimer =
      some 3200 := by decide +kernel

/-- The second example of section 5.7: byte 3 ends. -/
theorem test_failed_read_ends_the_record :
    bodyOf ((after (.dataCharacterSent 0) (withLine0 (sending .sending (.data bits33)
      { record := txRecord 0x30 40 true true, bytesRead := 16, bytesSent := 3 } [] (some .busError)))).line 0).tx.slot =
      some (.txDone 0 0x30 4 .busError) := by decide +kernel

/-- The example of section 5.5: the PAUSE ends while the peer holds the line paused. -/
def pausing : Line := { sending .sending (.flow .pause bits33)
    { record := txRecord 0x50 40 false true, bytesRead := 40, bytesSent := 21 } [0x31] none with
  flow := { Flow.reset with peerPaused := true, ownPaused := true } }
theorem test_flow_character_ends :
    ((after (.flowCharacterEnds 0) (withLine0 pausing)).line 0).tx.output = .mark ∧
      ((after (.flowCharacterEnds 0) (withLine0 pausing)).line 0).counters.txChars = 0 := by decide +kernel

theorem test_falling_edge : ((after (.fallingEdge 0) (withLine0 open0)).line 0).rx.asm = .frame := by decide +kernel

/-- R20. -/
theorem test_false_start : ((after (.falseStart 0) (withLine0 (full27 .frame))).line 0).rx.asm = .hunt ∧
    ((after (.falseStart 0) (withLine0 (full27 .frame))).line 0).counters = (full27 .frame).counters := by decide +kernel

/-! ### The Memory Engine and its requesters -/

/-- The requests of the example of section 10.5. -/
def busy (a b c : List Request) : State :=
  { run0 with engine := { Engine.reset with
      listA := a, listB := b, listC := c
      listD := [req (.fetch 1) 0 (.read 16), req (.fetch 15) 0 (.read 16), req (.fetch 0) 0 (.read 32)]
      lastB := 4, lastC := 8, lastD := 2 } }

/-- The example of section 10.5, step 2: after line 4 comes line 5. -/
theorem test_grant_step_2 :
    ((after .accessGrant (busy [] [req (.chunk 1) 0 (.write [1]), req (.chunk 5) 0 (.write [2])] [])).engine.access.map
      fun a => a.request.requester) = some (.chunk 5) := by decide +kernel

/-- The example of section 10.5, step 8: after line 2 comes line 6. -/
theorem test_grant_step_8 :
    ((after .accessGrant (busy [] [] [])).engine.access.map fun a => a.request.requester) = some (.fetch 15) ∧
      (after .accessGrant (busy [] [] [])).engine.lastD = 6 := by decide +kernel

/-- R173: a write that ended OK is in memory. -/
theorem test_bus_response_writes :
    (after (.busResponse (.normal [])) (accessing run0 (req .reportWrite 0x10 (.write [7, 8])))).mem = [(16, 7), (17, 8)] ∧
      (after (.busResponse (.normal [])) (accessing run0 (req .reportWrite 0x10 (.write [7, 8])))).engine.results.length = 1 := by
  decide +kernel

/-- R173: the timeout of a read is a bus error. -/
theorem test_access_timeout :
    ((after .accessTimeout (accessing run0 (req .tableRead 0x10 (.read 8)))).engine.results.map Result.data) = [none] := by
  decide +kernel

/-- R173: a late response is matched to no access. -/
theorem test_late_response :
    after (.busResponse .late) (accessing run0 (req .tableRead 0x10 (.read 8))) = accessing run0 (req .tableRead 0x10 (.read 8)) := by
  decide +kernel

/-- A closed buffer of the fourth example of chapter 4: 16 bytes written, the chunk write of 16 more in flight. -/
def inFlight16 : Line := openLine
    { RxSide.reset with
      chunk := List.replicate 8 0x41, inFlight := some 16, written := 16
      slot := some { dest := 1, time := 0, body := .rxDone 0 0x400 40 .full ErrorSet.empty none none } } TxSide.reset

/-- The fourth example of chapter 4: the write of bytes 16 to 31 fails. -/
theorem test_chunk_write_fails :
    bodyOf ((after (.chunkWriteEnds 0) (withResult (withLine0 inFlight16) (.chunk 0) none)).line 0).rx.slot =
        some (.rxDone 0 0x400 16 .busError ErrorSet.empty none none) ∧
      ((after (.chunkWriteEnds 0) (withResult (withLine0 inFlight16) (.chunk 0) none)).line 0).rx.chunk = [] := by
  decide +kernel

/-- A line whose read of bytes 0 to 15 of record 0x0050 is in flight. -/
def reading : Line :=
  { sending .sending .mark { record := txRecord 0x50 40 false true, bytesRead := 0, bytesSent := 0 } [] none with
    tx := { (sending .sending .mark { record := txRecord 0x50 40 false true, bytesRead := 0, bytesSent := 0 } [] none).tx with
      readInFlight := some 16 } }

/-- The example of section 5.5: byte 0 starts and the read of bytes 16 to 31 is requested. -/
theorem test_data_read :
    ((after (.dataReadEnds 0) (withResult (withLine0 reading) (.dataRead 0) (some (List.replicate 16 0x33)))).line 0).tx.output =
        .data bits33 ∧
      (after (.dataReadEnds 0) (withResult (withLine0 reading) (.dataRead 0) (some (List.replicate 16 0x33)))).engine.listC =
        [req (.dataRead 0) 0x10010 (.read 16)] := by decide +kernel

/-- The part of the example of section 9.6 with a fetch of slot 6 in flight. -/
def fetching14 (data : Option (List Byte)) : State :=
  withResult ((run0.setLine 5 open0).setRq 14 { run0.rq 14 with size := some 8, head := 6, tail := 1, fetch := true })
    (.fetch 14) data

/-- The example of section 9.6: the fetch of slot 6 fails. -/
theorem test_fetch_fails :
    ((after (.fetchEnds 14) (fetching14 none)).rq 14).halted = true ∧
      ((after (.fetchEnds 14) (fetching14 none)).line 5).events.map Completion.body = [.queueHalted 5 14 6] := by
  decide +kernel

/-- R54: a record that names the second range of the example of section 10.1 is invalid, and the head advances. -/
theorem test_fetch_delivers :
    ((after (.fetchEnds 14) (fetching14 (some (bytes 16 [(0, 0xF8), (1, 0x0F), (2, 1), (4, 16)])))).line 5).rx.bufs.map
        RxBuf.cond = [.invalid .addressFault] ∧
      ((after (.fetchEnds 14) (fetching14 (some (bytes 16 [(0, 0xF8), (1, 0x0F), (2, 1), (4, 16)])))).rq 14).head = 7 := by
  decide +kernel

/-- The Control Unit holds a request. -/
def holding (r : List Byte) (w : Requester) (data : Option (List Byte)) : State :=
  withResult { run0 with control := { ControlUnit.reset with st := .holding, req := some r } } w data

/-- R37: two intervals that touch at an end overlap; disjoint ones replace the table. -/
def entries (max1 min2 : Byte) : List Byte :=
  bytes 16 [(0, 32), (4, 16), (6, max1), (8, 40), (12, min2), (14, 99)]
theorem test_table_read :
    (after .tableReadEnds (holding (ctl 1 0 1 [(4, 2)]) .tableRead (some (entries 20 21)))).rateTable =
        [{ divisor := 32, min := 16, max := 20 }, { divisor := 40, min := 21, max := 99 }] ∧
      answerOf (after .tableReadEnds (holding (ctl 1 0 1 [(4, 2)]) .tableRead (some (entries 20 20)))) =
        some (.controlDone 1 none 1 .tableOverlap) := by decide +kernel

/-- R132. -/
theorem test_report_write :
    answerOf (after .reportWriteEnds (holding query .reportWrite (some []))) = some (.controlDone 9 (some 0) 5 .ok) := by
  decide +kernel

/-- R135: the head word goes to the first four bytes of slot 7, with the phase in bit 7 and the kind 4. -/
theorem test_body_then_head_word :
    (after (.bodyAccessEnds 1) (withResult (run0.setCq 1 (cq88 3 7 8 [] .body .armed)) (.body 1) (some []))).engine.listA =
      [req (.headWord 1) 0x50070 (.write [0x84, 0, 0, 0])] := by decide +kernel

/-- The example of section 8.8, step 3: the tail wraps to 0 and the phase flips, and the front waiter is admitted. -/
def step3 : State :=
  (withResult (run0.setCq 1 { cq88 3 7 8 [.events 2, .rxSlot 2] .headWord .armed with timer := some 90 })
    (.headWord 1) (some [])).setLine 2 { open0 with events := [someCpl 1] }
theorem test_head_word_step_3 :
    ((after (.headWordEnds 1) step3).cq 1).tail = 0 ∧ ((after (.headWordEnds 1) step3).cq 1).phase = false ∧
      ((after (.headWordEnds 1) step3).cq 1).staging.length = 8 ∧ ((after (.headWordEnds 1) step3).cq 1).timer = some 90 := by
  decide +kernel

/-- R162. -/
theorem test_progress_write :
    (after .progressWriteEnds (withResult { run0 with progressActive := true } .progress (some []))).progressActive = false ∧
      (after .progressWriteEnds (withResult { run0 with progressActive := true } .progress none)).cause = .progressWrite := by
  decide +kernel

/-- R162, R173: two progress writes have ended, the second with a bus error, when the first result is taken. -/
def twoProgress : State :=
  { run0 with
    progressActive := true
    engine := { Engine.reset with results :=
      [{ requester := .progress, addr := 0x60000, data := some [] }, { requester := .progress, addr := 0x60000, data := none }] } }
theorem test_second_progress_write_fails :
    (after .progressWriteEnds twoProgress).progressActive = true ∧
      (after .progressWriteEnds (after .progressWriteEnds twoProgress)).cause = .progressWrite := by decide +kernel

/-- A part that loads. -/
def loading (w : Requester) (data : Option (List Byte)) : State :=
  withResult { State.reset with part := .loading, setupAddr := 0x2000 } w data

/-- A valid Setup Record: window 0 covers 0x10000 to 0x1FFFF with READ, every ring has size 4, and the progress block lies
at 0xFFFFFFDC, where its 34 bytes end two below the top. -/
def setup0 : List Byte :=
  bytes 272 ([(2, 1), (6, 1), (8, 1)] ++ ((List.range 17).flatMap fun q => [(0x60 + 8 * q + 2, 1), (0x60 + 8 * q + 4, 4)]) ++
    ((List.range 4).flatMap fun c => [(0xE8 + 8 * c + 4, 4), (0x108 + c, 1)]) ++
    [(0x10C, 0xDC), (0x10D, 0xFF), (0x10E, 0xFF), (0x10F, 0xFF)])

/-- R183. -/
theorem test_setup_record_installed :
    (after .setupRecordReadEnds (loading .setupRead (some setup0))).engine.listA =
        [req .zeroProgress 0xFFFFFFDC (.write (List.replicate 34 0))] ∧
      ((after .setupRecordReadEnds (loading .setupRead (some setup0))).rq 16).size = some 4 := by decide +kernel

/-- R182: a threshold of 0 of CMQ3 is invalid at offset 0x10B. -/
theorem test_setup_record_invalid :
    (after .setupRecordReadEnds (loading .setupRead (some (setup0.set 0x10B 0)))).cause = .setupInvalid ∧
      (after .setupRecordReadEnds (loading .setupRead (some (setup0.set 0x10B 0)))).faultAddr = 0x210B := by decide +kernel

/-- R183. -/
theorem test_zero_progress :
    (after .zeroProgressWriteEnds (loading .zeroProgress (some []))).part = .running ∧
      (after .zeroProgressWriteEnds (loading .zeroProgress none)).part = .faulted := by decide +kernel

/-! ### The receive writer, the Completion Unit, the end of a stop -/

/-- A line of the second example of section 4.6: LF with a loss, behind a held CR. -/
def lossLf : Line := receiving (buf 0x302 6 (clean 1)) table46 [0x0D] [.char 0x0A false false true]

/-- The second example of section 4.6: the loss releases the hold and the message keeps its CR; FULL wins over ERROR. -/
theorem test_loss_and_error :
    bodyOf ((after (.takeCharacterEntry 0) (withLine0 lossLf)).line 0).rx.slot =
        some (.rxDone 0 0x302 3 .delimiter { parity := false, framing := false, overrun := true } (some 2) (some 1)) ∧
      bodyOf ((after (.takeCharacterEntry 0) (withLine0 { receiving (buf 0x301 3 (clean 1)) table46 [0x1B]
        [.char 0x5A false true false] with set := { open0.set with closeOnError := true } })).line 0).rx.slot =
        some (.rxDone 0 0x301 3 .full { parity := false, framing := true, overrun := false } (some 2) none) := by decide +kernel

/-- The first example of section 4.6. CR LF is dropped and closes with count 2, index 0; ESC ESC is dropped and the buffer
stays open; LF is kept and closes with count 4, index 1; HELLO and a CR close FULL with count 6; CR then 'Y' are stored. -/
theorem test_matching_example :
    bodyOf ((receiving (buf 0x200 6 (clean 2)) table46 [0x0D] []).matchChar 0 0 0x0A).rx.slot =
        some (.rxDone 0 0x200 2 .delimiter ErrorSet.empty none (some 0)) ∧
      ((receiving (buf 0x201 6 (clean 2)) table46 [0x1B] []).matchChar 0 0 0x1B).stored = 2 ∧
      bodyOf ((receiving (buf 0x201 6 (clean 3)) table46 [] []).matchChar 0 0 0x0A).rx.slot =
        some (.rxDone 0 0x201 4 .delimiter ErrorSet.empty none (some 1)) ∧
      bodyOf ((receiving (buf 0x202 6 (clean 5)) table46 [] []).matchChar 0 0 0x0D).rx.slot =
        some (.rxDone 0 0x202 6 .full ErrorSet.empty none none) ∧
      ((receiving (buf 0x204 6 (clean 1)) table46 [0x0D] []).matchChar 0 0 0x59).rx.chunk = [0x0D, 0x59] := by decide +kernel

/-- R60, R70. -/
theorem test_take_gap :
    bodyOf ((after (.takeGapMarker 0) (withLine0 { getCr with rx := { getCr.rx with fifo := [.gap false] } })).line 0).rx.slot =
      some (.rxDone 0 0x10 4 .gap ErrorSet.empty none none) := by decide +kernel

/-- R61: BREAK_IDLE without a started buffer, and the marker's loss is carried. -/
def idleBreak : Line := openLine { RxSide.reset with fifo := [.brk true] } TxSide.reset
theorem test_take_break :
    ((after (.takeBreakMarker 0) (withLine0 idleBreak)).line 0).events.map Completion.body = [.breakIdle 0] ∧
      ((after (.takeBreakMarker 0) (withLine0 idleBreak)).line 0).rx.lossCarried = true := by decide +kernel

/-- R57. -/
theorem test_answer_invalid :
    bodyOf ((after (.answerInvalidRecord 0) (withLine0 (receiving (buf 0x77 0 (.invalid .badRecord)) [] [] []))).line 0).rx.slot =
      some (.rxDone 0 0x77 0 .badRecord ErrorSet.empty none none) := by decide +kernel

/-- R139: the ninth record's producer waits. -/
def offering (n : Nat) : State := (run0.setCq 1 (cq88 0 7 n [] .noWrite .asserted)).setLine 2 { open0 with events := [someCpl 1] }
theorem test_offer :
    ((after (.offer (.events 2)) (offering 7)).cq 1).staging.length = 8 ∧
      ((after (.offer (.events 2)) (offering 8)).cq 1).waiting = [.events 2] := by decide +kernel

/-- The example of section 1.4: the waiting record 0x0101 is answered CLOSED with count 0. -/
theorem test_wind_up_answers :
    bodyOf ((after (.windUpBufferAnswer 0) (withLine0 (closingLine .immediate .windUp (.twoCloses 0x900 0x901)
      { RxSide.reset with bufs := [buf 0x101 40 .waiting] } TxSide.reset))).line 0).rx.slot =
      some (.rxDone 0 0x101 0 .closed ErrorSet.empty none none) := by decide +kernel

/-- The example of section 1.4: the wind-up ends with 0x0900 ABORTED, then 0x0901 OK. -/
def woundUp : Line := closingLine .immediate .windUp (.twoCloses 0x900 0x901) RxSide.reset TxSide.reset
theorem test_wind_up_end :
    ((after (.windUpEnd 0) (withLine0 woundUp)).line 0).state = .closed ∧
      ((after (.windUpEnd 0) (withLine0 woundUp)).line 0).events.map Completion.body =
        [.controlDone 8 (some 0) 0x900 .aborted, .controlDone 8 (some 0) 0x901 .ok] := by decide +kernel

/-- R147. -/
theorem test_moderation :
    ((after (.moderationTimerExpiry 1) (run0.setCq 1 { cq88 3 7 0 [] .noWrite .armed with timer := some 0 })).cq 1).notif =
      .asserted := by decide +kernel

/-- The example of section 11.4: DISCARDED is set, the lines are CLOSED, and the part is STOPPED with the Engine idle. -/
def stopping : State := { withLine0 woundUp with part := .stopping, stopLimit := some 0 }
theorem test_stop_limit :
    (after .stopLimitExpiry stopping).discarded = true ∧ (after .stopLimitExpiry stopping).part = .stopped ∧
      (after .stopLimitExpiry stopping).line 0 = Line.reset := by decide +kernel

/-- R186. -/
theorem test_stopping_ends :
    (after .stoppingEnds { run0 with part := .stopping, stopLimit := some 5 }).part = .stopped ∧
      (after .stoppingEnds stopping).part = .stopping := by decide +kernel

/-- The example of section 10.1: the four ranges. -/
theorem test_ranges :
    rangeAllowed run0.windows true 0x10700 0x200 = true ∧ rangeAllowed run0.windows false 0x10FF8 16 = true ∧
      rangeAllowed run0.windows true 0x10FF8 16 = false ∧ rangeAllowed run0.windows false 0x10F00 0x900 = true ∧
      rangeAllowed run0.windows true 0x10F00 0x900 = false ∧ rangeAllowed run0.windows false 0x10700 0x1000 = false := by
  decide +kernel

/-- R143, R152: INT0 follows the fault flag, NOTIFY reads it in bit 8, and a narrow read reads 0. -/
theorem test_notify :
    ({ run0 with notifyFault := true }).intAsserted 0 = true ∧ ({ run0 with notifyFault := true }).windowRead 0x14 false = 0x100 ∧
      ({ run0 with notifyFault := true }).windowRead 0x14 true = 0 := by decide +kernel

/-- R178, R194: what a write of a register is. -/
theorem test_window_write :
    windowWrite 0x00 false 3 = .softReset true ∧ windowWrite 0x0C false 0x000E0003 = .post 14 3 ∧
      windowWrite 0x10 false 0x80010002 = .retireArm 1 2 ∧ windowWrite 0x04 false 0 = .registerWriteIgnored 4 false 0 := by
  decide

/-! ### States that meet the hypotheses of the statements

One theorem for each statement of Certificates/Slice0/Obligations.lean that has hypotheses. It gives a state and operands
for each clause, at the ends of the clause's ranges. -/

/-- A delivered record is one that `ControlDelivered` describes. -/
theorem delivered_is_delivered (s : State) (r : List Byte) (h1 : s.resetHeld = false) (h2 : s.part = .running)
    (h3 : (s.rq 0).head = 0) : ControlDelivered (delivered s r) r := by
  refine ⟨h1, h2, ?_, ?_, _, rfl, rfl⟩
  · simp [delivered, withResult, State.setRq, State.rq]
  · have h : s.reqQueues[0].head = 0 := h3
    simp [delivered, withResult, State.setRq, State.rq]
    omega

/-- A record delivered beside a line 0. -/
theorem delivered_line0 (l : Line) (r : List Byte) : ControlDelivered (delivered (withLine0 l) r) r :=
  delivered_is_delivered _ _ rfl rfl rfl

theorem witness_StepTakesFrontCommand :
    ({ run0 with pending := [.nop, .statusRead] }).pending = .nop :: [.statusRead] ∧ State.reset.pending = [] := ⟨rfl, rfl⟩

theorem witness_PinResetHoldsThePart :
    (accessing run0 (req (.chunk 0) 0xFFFFFFFF (.write [1]))).resetHeld = false ∧
      (accessing run0 (req (.chunk 0) 0xFFFFFFFF (.write [1]))).engine.access =
        some (inProgress (req (.chunk 0) 0xFFFFFFFF (.write [1]))) ∧
      ({ run0 with resetHeld := true }).resetHeld = true ∧ Instr.nop ≠ .pinResetRelease ∧ Instr.nop ≠ .statusRead := by
  decide +kernel

theorem witness_SoftResetKeepsTheCause :
    (run0.resetHeld = false ∧ run0.softPending = false ∧ run0.engine.access = none) ∧
      (accessing run0 (req .tableRead 0 (.read 8))).engine.access ≠ none ∧
      (({ run0 with softPending := true }).softPending = true ∧
        (accessing { run0 with softPending := true } (req .tableRead 0 (.read 8))).engine.access ≠ none) := by decide +kernel

theorem witness_RunWritten1StartsLoading :
    run0.part ≠ .stopped ∧ State.reset.part = .stopped ∧ maxAddress < (0xFFFFFEF1#32).toNat + 271 ∧
      (0xFFFFFEF0#32).toNat + 271 ≤ maxAddress ∧ State.reset.engine.access = none ∧ State.reset.softPending = false ∧
      (accessing State.reset (req .reportWrite 0x10 (.write [7]))).part = .stopped ∧
      ({ State.reset with softPending := true }).part = .stopped := by
  decide +kernel

theorem witness_RunWritten0StopsThePart :
    (withLine0 open0).part = .running ∧ inSession ((withLine0 open0).line 0).state = true ∧
      (accessing { run0 with part := .loading } (req .setupRead 0 (.read 272))).loadingAccess = true ∧
      ({ run0 with part := .loading }).loadingAccess = false ∧ ({ run0 with part := .faulted }).part = .faulted ∧
      stopping.part = .stopping := by decide +kernel

theorem witness_RegisterWindowAnswers :
    run0.resetHeld = false ∧ ((run0.setCq 1 (cq88 0 7 0 [] .noWrite .asserted)).cq 1).notif = .asserted ∧
      (0x20 ∉ [0x00, 0x04, 0x08, 0x14, 0x18, 0x1C]) ∧
      (ignoredWrite 0x04 false = true ∧ ignoredWrite 0x00 true = true ∧ ignoredWrite 0x14 false = true) ∧
      ((31#5).toNat = (0xFFFFFFFF#32).toNat / 2 ^ 16 % 2 ^ 5 ∧ (0xFFFF#16).toNat = (0xFFFFFFFF#32).toNat % 2 ^ 16) ∧
      (15#4).toNat = (0xFFFFFFFF#32).toNat / 2 ^ 16 % 2 ^ 4 := by decide +kernel

theorem witness_SetupAddrHolds :
    (State.reset.part = .stopped ∧ run0.part ≠ .stopped) ∧ exec .nop State.reset = .next State.reset ∧
      ((∃ t, exec .pinReset run0 = .next t) ∧ (∃ t, exec (.softReset true) run0 = .next t) ∧
        ∃ t, exec .pinResetRelease { run0 with resetHeld := true } = .next t) ∧
      (∃ t, exec .softResetTakesEffect { run0 with softPending := true } = .next t) ∧
      ((0xFFFFFEF0#32).toNat + 271 ≤ maxAddress ∧ State.reset.softPending = false) ∧
      ∃ t, exec .runWritten1 State.reset = .next t :=
  ⟨by decide +kernel, rfl, ⟨⟨_, rfl⟩, ⟨_, rfl⟩, ⟨_, rfl⟩⟩, ⟨_, rfl⟩, by decide, ⟨_, rfl⟩⟩

theorem witness_PostMovesTheTail :
    (run0.part = .running ∧ (16#5).toNat = (16 : RqNo).val ∧ (run0.rq 16).size = some 16 ∧ (15#16).toNat < 16) ∧
      16 < (17#5).toNat ∧ (run0.rq 0).size.getD 0 ≤ (16#16).toNat := by decide +kernel

theorem witness_RetireMovesTheHead :
    ((3#4).toNat = (3 : CqNo).val ∧ ((run0.setCq 3 (cq88 0 7 0 [] .noWrite .armed)).cq 3).size = some 8 ∧ (7#16).toNat < 8 ∧
      ringDist 7 0 8 ≤ (cq88 0 7 0 [] .noWrite .armed).unretired) ∧
      (bodyRequests 1 { cq88 0 7 8 [] .noWrite .armed with head := 3 } ≠ [] ∧ bodyRequests 1 (cq88 0 7 8 [] .noWrite .armed) = []) ∧
      3 < (4#4).toNat ∧ (run0.cq 0).size.getD 0 ≤ (8#16).toNat ∧ (run0.cq 0).unretired < ringDist 1 (run0.cq 0).head 8 := by
  decide +kernel

theorem witness_MicrosecondAdvancesTimers : run0.resetHeld = false := rfl

theorem witness_AcceptedRequestAnswered :
    ControlDelivered (delivered run0 (ctl 0 0 1 [])) (ctl 0 0 1 []) ∧ (reqCode (ctl 0 0 1 [])).toNat = 0 ∧
      11 ≤ (reqCode (ctl 11 0 1 [])).toNat ∧ 11 ≤ (reqCode (ctl 255 0 1 [])).toNat ∧
      ∀ s : State, s = { delivered run0 (ctl 0 0 1 []) with part := .stopping } →
        s.resetHeld = false ∧ (s.rq 0).fetch = true ∧
          s.result? (.fetch 0) = some { requester := .fetch 0, addr := 0x8000, data := some (ctl 0 0 1 []) } ∧ s.part ≠ .running :=
  ⟨delivered_is_delivered _ _ rfl rfl rfl, by decide +kernel, by decide +kernel, by decide +kernel,
    fun s h => by subst h; decide +kernel⟩

/-- The line an answer names: line 0 of a FLUSH_RX; absent for code 10 and for line number 8. -/
theorem witness_AcceptedRequestAnswered_line :
    (∀ i : LineNo, some 0 = some i ↔ (recByte (ctl 7 0 1 []) 1).toNat = i.val ∧ 2 ≤ (recByte (ctl 7 0 1 []) 0).toNat ∧
      (recByte (ctl 7 0 1 []) 0).toNat ≤ 9) ∧
    (∀ i : LineNo, none = some i ↔ (recByte (ctl 10 0 1 []) 1).toNat = i.val ∧ 2 ≤ (recByte (ctl 10 0 1 []) 0).toNat ∧
      (recByte (ctl 10 0 1 []) 0).toNat ≤ 9) ∧
    ∀ i : LineNo, none = some i ↔ (recByte (ctl 9 8 1 []) 1).toNat = i.val ∧ 2 ≤ (recByte (ctl 9 8 1 []) 0).toNat ∧
      (recByte (ctl 9 8 1 []) 0).toNat ≤ 9 := by decide +kernel

theorem witness_FailedFetchHaltsUntilRestart :
    ((14 : RqNo) = rpq 5 ∧ ((fetching14 none).rq 14).fetch = true ∧
      (fetching14 none).result? (.fetch 14) = some { requester := .fetch 14, addr := 0x8000, data := none }) ∧
      ControlDelivered (delivered halted14 (ctl 10 0 1 [(4, 14)])) (ctl 10 0 1 [(4, 14)]) ∧
      (recByte (ctl 10 0 1 [(4, 14)]) 4).toNat = (14 : RqNo).val ∧
      ((delivered halted14 (ctl 10 0 1 [(4, 14)])).acceptControl.rq 14).halted = true ∧
      ((delivered halted14 (ctl 10 0 1 [(4, 16)])).acceptControl.rq 16).halted = false ∧
      16 < (recByte (ctl 10 0 1 [(4, 17)]) 4).toNat :=
  ⟨by decide +kernel, delivered_is_delivered _ _ rfl rfl rfl, by decide +kernel, by decide +kernel, by decide +kernel,
    by decide +kernel⟩

theorem witness_LineRequestRefused :
    lineRequest .flushRx = some (7, [.opened]) ∧ ControlDelivered (delivered (withLine0 stalled) (ctl 7 0 1 [])) (ctl 7 0 1 []) ∧
      8 ≤ (reqLine (ctl 7 8 1 [])).toNat ∧ (reqLine (ctl 7 7 1 [])).toNat = (7 : LineNo).val ∧
      ((delivered (withLine0 stalled) (ctl 7 0 1 [])).line 0).long ≠ .noRequest ∧
      ((delivered (withLine0 stalled) (ctl 7 7 1 [])).line 7).long = .noRequest ∧
      ((delivered (withLine0 stalled) (ctl 7 7 1 [])).line 7).state ∉ [LineState.opened] :=
  ⟨rfl, delivered_line0 _ _, by decide +kernel, by decide +kernel, by decide +kernel, by decide +kernel, by decide +kernel⟩

/-- A SET_RATE_TABLE of `n` entries at 0x10000 plus `low`. -/
def setTable (n low : Byte) : List Byte := ctl 1 0 1 [(4, n), (8, low), (10, 1)]
theorem witness_SetRateTableChecked :
    ControlDelivered (delivered run0 (setTable 12 0)) (setTable 12 0) ∧ (reqCode (setTable 12 0)).toNat = 1 ∧
      ((recByte (setTable 0 0) 4).toNat = 0 ∧ 12 < (recByte (setTable 13 0) 4).toNat) ∧
      (recWord (setTable 1 4) 8).toNat % 8 ≠ 0 ∧ ((discovering .seek .idle Discovery.reset).line 4).state = .seek ∧
      rangeAllowed State.reset.windows false (recWord (setTable 1 0) 8) 8 = false ∧
      rangeAllowed run0.windows false (recWord (setTable 12 0) 8) (8 * 12) = true :=
  ⟨delivered_is_delivered _ _ rfl rfl rfl, by decide +kernel, by decide +kernel, by decide +kernel, by decide +kernel,
    by decide +kernel, by decide +kernel⟩

theorem witness_TableReadReplacesTheTable :
    (∀ s : State, s = holding (setTable 2 0) .tableRead (some (entries 20 21)) →
      s.resetHeld = false ∧ s.control.st = .holding ∧ s.control.req = some (setTable 2 0) ∧ (reqCode (setTable 2 0)).toNat = 1 ∧
        (s.result? .tableRead).map Result.data = some (some (entries 20 21))) ∧
      ((holding (setTable 2 0) .tableRead none).result? .tableRead).map Result.data = some none ∧
      (∃ e ∈ rateEntriesOf (entries 15 21) 2, e.max < e.min) ∧ tableStatus (rateEntriesOf (entries 20 20) 2) = .tableOverlap ∧
      tableStatus (rateEntriesOf (entries 20 21) 2) = .ok :=
  ⟨fun s h => by subst h; decide +kernel, by decide +kernel, by decide +kernel, by decide +kernel, by decide +kernel⟩

theorem witness_OpenLineOpens :
    ControlDelivered (delivered run0 openFixed) openFixed ∧ (reqCode openFixed).toNat = 2 ∧
      (reqLine openFixed).toNat = (0 : LineNo).val ∧ ((delivered run0 openFixed).line 0).long = .noRequest ∧
      ((delivered run0 openFixed).line 0).state = .closed ∧ firstFailure (openChecks openFixed []) = none ∧
      firstFailure (openChecks openDiscover rates36) = none ∧ firstFailure (openChecks openDiscover []) = some .noRateTable ∧
      firstFailure (openChecks (openDiscover.set 22 0x43) rates36) = some .trialAmbiguous ∧
      firstFailure (openChecks (openFixed.set 8 31) []) = some .badParam :=
  ⟨delivered_is_delivered _ _ rfl rfl rfl, by decide +kernel, by decide +kernel, by decide +kernel, by decide +kernel,
    by decide +kernel, by decide +kernel, by decide +kernel, by decide +kernel, by decide +kernel⟩

/-- The frame and the bound completion queue of the two requests: 7 data bits, EVEN, 2 stop bits, CMQ1; CMQ3. -/
theorem witness_OpenLineOpens_frame :
    ((1 : CqNo).val = (recByte openFixed 10).toNat ∧ (recByte openFixed 4).toNat = 0 ∧ (recByte openFixed 5).toNat = 7 ∧
      (recByte openFixed 6).toNat = 1 ∧ (recByte openFixed 7).toNat = 2) ∧
    (3 : CqNo).val = (recByte openDiscover 10).toNat ∧ (recByte openDiscover 4).toNat ≠ 0 := by decide +kernel

/-- The fields of a DISCOVER that lie in the ranges of R120, at the ends of many of them; a divisor below its range. -/
theorem witness_OpenLineOpens_ranges :
    ((recByte openDiscover 4).toNat = 1 ∧ 4 ≤ (recByte openDiscover 24).toNat ∧ (recByte openDiscover 24).toNat = 64 ∧
      (recByte openDiscover 21).toNat = 2 ∧ (recByte openDiscover 10).toNat = 3 ∧ (recByte openDiscover 11).toNat ≤ 1 ∧
      recByte openDiscover 12 ≠ recByte openDiscover 13 ∧ (recByte openDiscover 14).toNat = 30 ∧
      (recByte openDiscover 15).toNat = 31 ∧ (recByte openDiscover 19).toNat = 2) ∧
      (recByte (openFixed.set 8 31) 4).toNat = 0 ∧ ¬ 32 ≤ (recHalf (openFixed.set 8 31) 8).toNat := by decide +kernel

theorem witness_ModifyLineReplacesSettings :
    ControlDelivered (delivered (withLine0 marks12) modifyHigh) modifyHigh ∧
      ((reqCode modifyHigh).toNat = 3 ∧ (reqLine modifyHigh).toNat = (0 : LineNo).val ∧
        ((delivered (withLine0 marks12) modifyHigh).line 0).long = .noRequest ∧
        inSession ((delivered (withLine0 marks12) modifyHigh).line 0).state = true) ∧
      ((modifySettings modifyHigh marks12.set).highMark ≤ (modifySettings modifyHigh marks12.set).lowMark) ∧
      ¬(modifySettings (modifyHigh.set 6 13) marks12.set).highMark ≤ (modifySettings (modifyHigh.set 6 13) marks12.set).lowMark :=
  ⟨delivered_line0 _ _, by decide +kernel, by decide +kernel, by decide +kernel⟩

theorem witness_SetDelimitersReplacesTheTable :
    ControlDelivered (delivered (withLine0 getCr) delims03) delims03 ∧
      ((reqCode delims03).toNat = 4 ∧ inSession ((delivered (withLine0 getCr) delims03).line 0).state = true) ∧
      firstFailure (delimChecks delims03) = none ∧ 4 < (recByte (delims03.set 4 5) 4).toNat ∧
      (slotLength (delims03.set 8 0) 0 < 1 ∧ 4 < slotLength (delims03.set 8 5) 0 ∧ slotLength (delims03.set 8 4) 0 = 4) ∧
      2 < (recByte (delims03.set 9 3) 9).toNat ∧ firstFailure (delimChecks ((delims03.set 4 2).set 14 1)) = none ∧
      firstFailure (delimChecks (((delims03.set 4 2).set 14 1).set 16 3)) = some .delimiterConflict :=
  ⟨delivered_line0 _ _, by decide +kernel, by decide +kernel, by decide +kernel, by decide +kernel, by decide +kernel,
    by decide +kernel, by decide +kernel⟩

theorem witness_RediscoverEntersSeek :
    ControlDelivered (delivered (withLine0 open36) (ctl 5 0 1 [])) (ctl 5 0 1 []) ∧
      (((delivered (withLine0 open36) (ctl 5 0 1 [])).line 0).state = .opened ∧ (reqCode (ctl 5 0 1 [])).toNat = 5) ∧
      lastOf0700.tx.st ≠ .idle ∧ pausing.flowOnOutput = true ∧ open36.flowOnOutput = false ∧ run0.rateTable = [] ∧
      unambiguous open36.set.trial1 open36.set.trial2 = true ∧ unambiguous open0.set.trial1 open0.set.trial2 = false :=
  ⟨delivered_line0 _ _, by decide +kernel, by decide +kernel, by decide +kernel, by decide +kernel, by decide +kernel,
    by decide +kernel, by decide +kernel⟩

theorem witness_FlushesBegin :
    ControlDelivered (delivered (withLine0 lastOf0700) (ctl 6 0 0 [])) (ctl 6 0 0 []) ∧
      ((delivered (withLine0 lossOnly) (ctl 7 0 0 [])).line 0 = lossOnly ∧ lossOnly.rx.fifo = [] ∧ lossOnly.hasStarted = false ∧
        getCr.hasStarted = true ∧ (full27 .hunt).rx.fifo ≠ [] ∧ (full27 .hunt).hasStarted = false) ∧
      (((delivered (withLine0 lastOf0700) (ctl 6 0 0 [])).line 0).state = .opened ∧ (reqCode (ctl 6 0 0 [])).toNat = 6 ∧
        (reqCode (ctl 7 0 0 [])).toNat = 7 ∧ lastOf0700.long = .noRequest) ∧
      open0.tx.cur = none ∧ lastOf0700.tx.output = .data bits33 ∧ breaking.tx.output = .brk ∧
      pausing.tx.output = .flow .pause bits33 :=
  ⟨delivered_line0 _ _, by decide +kernel, by decide +kernel, by decide +kernel, by decide +kernel, by decide +kernel,
    by decide +kernel⟩

theorem witness_CloseLineFollowsItsRows :
    ControlDelivered (delivered (withLine0 stalled) (ctl 8 0 1 [(4, 1)])) (ctl 8 0 1 [(4, 1)]) ∧
      8 ≤ (reqLine (ctl 8 8 1 [])).toNat ∧ 1 < (recByte (ctl 8 0 1 [(4, 2)]) 4).toNat ∧
      (open0.long = .noRequest ∧ inSession open0.state = true) ∧ stalled.long = .closeLine .graceful 0x900 ∧
      stalled.draining = true ∧ woundUp.long = .twoCloses 0x900 0x901 ∧ woundUp.draining = false ∧
      (Line.reset.long = .noRequest ∧ inSession Line.reset.state = false) :=
  ⟨delivered_line0 _ _, by decide +kernel, by decide +kernel, by decide +kernel, by decide +kernel, by decide +kernel,
    by decide +kernel, by decide +kernel, by decide +kernel⟩

theorem witness_QueryLineReports :
    ControlDelivered (delivered (withLine0 stalled) query) query ∧ (reqCode query).toNat = 9 ∧
      ((recWord query 8).toNat % 8 = 0 ∧ (recWord (query.set 8 0xC4) 8).toNat % 8 ≠ 0) ∧
      rangeAllowed run0.windows true (recWord query 8) 64 = true ∧
      rangeAllowed run0.windows true (recWord (query.set 8 0xC8) 8) 64 = false ∧
      ((holding query .reportWrite none).control.req = some query ∧
        ((holding query .reportWrite none).result? .reportWrite).map Result.data = some none) :=
  ⟨delivered_line0 _ _, by decide +kernel, by decide +kernel, by decide +kernel, by decide +kernel, by decide +kernel⟩

theorem witness_FrameCarriesItsCharacter :
    ({ dataBits := 5, parity := .even, stopBits := 1 } : Frame).receive [false, true, true, true, false, false, false, true] =
        some { value := 7, parityError := true, framingError := false } ∧
      trialFrame.receive (false :: List.replicate 8 true ++ [false]) =
        some { value := 0xFF, parityError := false, framingError := true } := by decide +kernel

theorem witness_CharacterCompletesInOpen :
    (∀ s : State, s = withLine0 (full27 .frame) → s.resetHeld = false ∧ (s.line 0).rx.asm = .frame ∧ (s.line 0).state = .opened ∧
      (s.line 0).frame.receive bits33 = some { value := 0x33, parityError := false, framingError := false }) ∧
      32 ≤ (full27 .frame).rx.fifo.length ∧ open0.rx.fifo.length < 32 ∧ stalled.set.flowMode = .inband ∧
      stalled.set.pauseValue = 0x13 ∧ stalled.set.resumeValue = 0x11 :=
  ⟨fun s h => by subst h; decide +kernel, by decide +kernel, by decide +kernel, by decide +kernel, by decide +kernel,
    by decide +kernel⟩

theorem witness_CharacterCompletesInTrial :
    (∀ s : State, s = discovering .trial .frame { Discovery.reset with candidate := some 0, held := [0x41] } →
      s.resetHeld = false ∧ (s.line 4).rx.asm = .frame ∧ (s.line 4).state = .trial ∧
        trialFrame.receive bitsD4 = some { value := 0xD4, parityError := false, framingError := false } ∧
        (0xD4#8 &&& 0x7F#8) = (s.line 4).set.trial2 ∧ s.rateTable[0]? = some { divisor := 1920, min := 1800, max := 2040 } ∧
        weight (s.line 4).set.trial1 % 2 = 0) ∧
      (trialFrame.receive bits41 = some { value := 0x41, parityError := false, framingError := false } ∧
        (0x41#8 &&& 0x7F#8) = settings36.trial1) ∧
      (trialFrame.receive [false, true, false, true, true, true, false, true, false, true] =
          some { value := 0x5D, parityError := false, framingError := false } ∧ (0x5D#8 &&& 0x7F#8) ≠ settings36.trial1) :=
  ⟨fun s h => by subst h; decide +kernel, by decide +kernel, by decide +kernel⟩

theorem witness_AssemblerFollowsTheInput :
    ((full27 .frame).rx.asm = .frame ∧ (full27 .frame).state = .opened) ∧
      (((discovering .trial .frame Discovery.reset).line 4).rx.asm = .frame ∧
        ((discovering .trial .frame Discovery.reset).line 4).state = .trial) ∧
      ((full27 .brk).rx.asm = .brk ∧ (full27 .brk).state = .opened) ∧ (open0.rx.asm = .hunt ∧ open0.state ≠ .seek) ∧
      ((discovering .seek .idle Discovery.reset).line 4).state = .seek := by decide +kernel

theorem witness_LowIntervalMeasures :
    (∀ s : State, s = discovering .seek .idle { Discovery.reset with intervals := 8, shortest := some 1915, measuring := true } →
      s.resetHeld = false ∧ (s.line 4).state = .seek ∧ (s.line 4).disc.measuring = true ∧
        (s.line 4).set.seekWindow ≤ (s.line 4).disc.intervals + 1 ∧
        s.rateTable[0]? = some { divisor := 1920, min := 1800, max := 2040 } ∧ min 2040 ((s.line 4).disc.shortest.getD 2040) = 1915) ∧
      ((discovering .seek .idle Discovery.reset).line 4).disc.measuring = false ∧
      (∀ e ∈ rates36, 16 < e.min ∨ e.max < 16) ∧ (∀ e ∈ rates36, 65535 < e.min ∨ e.max < 65535) ∧ 0 + 1 < settings36.seekWindow :=
  ⟨fun s h => by subst h; decide +kernel, by decide +kernel, by decide +kernel, by decide +kernel, by decide +kernel⟩

theorem witness_ReceptionTimersExpire :
    (∀ l : Line, l = { full27 .hunt with rx := { (full27 .hunt).rx with gapTimer := some 6400 } } →
      l.state = .opened ∧ l.rx.gapTimer ≠ none) ∧
      (∀ s : State, s = discovering .trial .hunt
        { Discovery.reset with attempts := 2, candidate := some 0, timer := some 0, window := some 9 } →
        s.resetHeld = false ∧ (s.line 4).state = .trial ∧ (s.line 4).disc.window ≠ none ∧ (s.line 4).disc.timer ≠ none ∧
          min ((s.line 4).disc.attempts + 1) 255 = (s.line 4).set.attemptLimit) :=
  ⟨fun l h => by subst h; decide +kernel, fun s h => by subst h; decide +kernel⟩

theorem witness_DataCharacterEndsItsRecord :
    (lastOf0700.tx.output = .data bits33 ∧
      lastOf0700.tx.cur = some { record := txRecord 0x700 5 true false, bytesRead := 5, bytesSent := 4 } ∧
      lastOf0700.tx.ending = none ∧ (4 : Nat) + 1 = (txRecord 0x700 5 true false).len) ∧
      (txRecord 0x50 40 false true).breakAfter = true ∧ (39 : Nat) + 1 = (txRecord 0x50 40 false true).len ∧
      (sending .sending (.data bits33) { record := txRecord 0x30 40 true true, bytesRead := 16, bytesSent := 3 } []
        (some .busError)).tx.ending = some .busError := by decide +kernel

theorem witness_OutputAndPauseEnd :
    pausing.tx.output = .flow .pause bits33 ∧
      (breaking.tx.st = .brk ∧ breaking.tx.breakTimer ≠ none ∧
        breaking.tx.cur = some { record := txRecord 0x50 40 false true, bytesRead := 40, bytesSent := 40 }) ∧
      ({ open0 with flow := { Flow.reset with timer := some 0 } }).flow.timer ≠ none := by decide +kernel

theorem witness_DrainLimitCarriesOutTheAborts :
    (∀ l : Line, l = { stalled with close := { stalled.close with drainTimer := some 0 } } →
      l.draining = true ∧ l.close.drainTimer ≠ none ∧ l.tx.output = .mark ∧
        l.tx.cur = some { record := txRecord 0x41 80 false false, bytesRead := 32, bytesSent := 12 }) ∧
      TxSide.reset.cur = none :=
  ⟨fun l h => by subst h; decide +kernel, rfl⟩

theorem witness_DataReadFillsTheFifo :
    (∀ s : State, s = withResult (withLine0 reading) (.dataRead 0) none → s.resetHeld = false ∧
      (s.line 0).tx.readInFlight = some 16 ∧ (s.result? (.dataRead 0)).map Result.data = some none ∧
      (s.line 0).tx.cur ≠ none ∧ (s.line 0).tx.ending = none ∧ (s.line 0).tx.output = .mark) ∧
      ((withResult (withLine0 reading) (.dataRead 0) (some [1])).result? (.dataRead 0)).map Result.data = some (some [1]) :=
  ⟨fun s h => by subst h; decide +kernel, by decide +kernel⟩

theorem witness_AccessGrantTakesTurns :
    (∀ s : State, s = busy [] [] [] → s.resetHeld = false ∧ s.engine.access = none ∧ s.softPending = false ∧ s.part = .running ∧
      s.engine.listA = [] ∧ s.engine.listB = [] ∧ s.engine.listC = []) ∧
      NextInTurn (busy [] [] []).engine.lastD (busy [] [] []).engine.listD (req (.fetch 15) 0 (.read 16)) ∧
      NextInTurn 4 [req (.chunk 1) 0 (.write [1]), req (.chunk 5) 0 (.write [2])] (req (.chunk 5) 0 (.write [2])) ∧
      NextInTurn 8 [req (.dataRead 3) 0 (.read 1)] (req (.dataRead 3) 0 (.read 1)) ∧
      (busy [req .progress 0 (.write [])] [] []).engine.listA = req .progress 0 (.write []) :: [] :=
  ⟨fun s h => by subst h; decide +kernel, ⟨by decide +kernel, by decide +kernel⟩, ⟨by decide +kernel, by decide +kernel⟩,
    ⟨by decide +kernel, by decide +kernel⟩, rfl⟩

theorem witness_AccessEndsWithItsResult :
    (accessing run0 (req .tableRead 0 (.read 8))).engine.access = some (inProgress (req .tableRead 0 (.read 8))) ∧
      (List.replicate 8 (0 : Byte)).length = 8 ∧
      (accessing run0 (req (.chunk 0) 0xFFFFFFFF (.write [1]))).engine.access =
        some (inProgress (req (.chunk 0) 0xFFFFFFFF (.write [1]))) := by decide +kernel

theorem witness_ReceivePostAccepted :
    (∀ s : State, s = fetching14 (some (bytes 16 [])) → s.resetHeld = false ∧ (s.rq (rpq 5)).fetch = true ∧
      (s.result? (.fetch (rpq 5))).map Result.data = some (some (bytes 16 [])) ∧ (s.rq (rpq 5)).head ≠ (s.rq (rpq 5)).tail ∧
      (s.line 5).state = .opened) ∧
      ((fetching14 none).line 4).state = .closed :=
  ⟨fun s h => by subst h; decide +kernel, by decide +kernel⟩

/-- A fetch of TXQ0 has delivered a record to line 0. -/
def fetching1 (l : Line) (tail : Nat) : State :=
  withResult ((withLine0 l).setRq 1 { run0.rq 1 with tail := tail, fetch := true }) (.fetch 1) (some (bytes 16 [(4, 1), (2, 1)]))

/-- The draining line with nothing left to send. -/
def drained : Line := { stalled with tx := TxSide.reset, close := { stalled.close with boundary := some 1 } }
theorem witness_TransmitRecordAccepted :
    (∀ s : State, s = fetching1 open0 1 → s.resetHeld = false ∧ (s.rq (txq 0)).fetch = true ∧
      (s.result? (.fetch (txq 0))).map Result.data = some (some (bytes 16 [(4, 1), (2, 1)])) ∧
      (s.rq (txq 0)).head ≠ (s.rq (txq 0)).tail ∧ (s.line 0).state = .opened ∧ (s.line 0).long.isFlush = false) ∧
      ((fetching1 open0 0).rq (txq 0)).head = ((fetching1 open0 0).rq (txq 0)).tail ∧
      (PendingLong.flushTx 1).isFlush = true ∧
      (drained.draining = true ∧ drained.close.txDone = false ∧ drained.close.boundary ≠ some 0) :=
  ⟨fun s h => by subst h; decide +kernel, by decide +kernel, by decide +kernel, by decide +kernel⟩

theorem witness_FailedAccessFaultsThePart :
    (fatalAccess .progressWriteEnds = some (.progress, .progressWrite) ∧
      ({ run0 with progressActive := true }).awaits .progress = true) ∧
      (fatalAccess (.fetchEnds 0) = some (.fetch 0, .controlFetch) ∧ (delivered run0 []).awaits (.fetch 0) = true) ∧
      (fatalAccess (.bodyAccessEnds 3) = some (.body 3, .completionWrite) ∧
        (run0.setCq 3 (cq88 0 1 1 [] .body .armed)).awaits (.body 3) = true) ∧
      (fatalAccess (.headWordEnds 0) = some (.headWord 0, .completionWrite) ∧
        (run0.setCq 0 (cq88 0 1 1 [] .headWord .armed)).awaits (.headWord 0) = true) ∧
      (fatalAccess .zeroProgressWriteEnds = some (.zeroProgress, .progressWrite) ∧
        (loading .zeroProgress none).awaits .zeroProgress = true) ∧
      ((withResult run0 .progress none).result? .progress).map Result.data = some none := by decide +kernel

theorem ringSize_4 : RingSize 4 := ⟨2, by omega, by omega, rfl⟩

theorem not_ringSize_3 : ¬ RingSize 3 := by
  rintro ⟨k, h1, h2, h3⟩
  interval_cases k <;> omega

/-- The rings of a Setup Record of size 4, whose other fields pass. -/
theorem rings_pass {r : List Byte}
    (hq : ∀ q : RqNo, (recHalf r (0x60 + 8 * q.val + 4)).toNat = 4 ∧
      (recWord r (0x60 + 8 * q.val)).toNat % ringEntry q = 0 ∧
      rangeAllowed (setupWindows r) false (recWord r (0x60 + 8 * q.val)) (4 * ringEntry q) = true) :
    ∀ q, RequestRingPasses r q := fun q => by
  obtain ⟨h1, h2, h3⟩ := hq q
  rw [RequestRingPasses, h1]
  exact ⟨ringSize_4, h2, h3⟩

/-- A valid Setup Record, and records whose first failing field is in a window, a request ring, a completion ring and the
progress block. -/
theorem witness_SetupRecordValidity :
    ((∀ n < 8, WindowPasses setup0 n) ∧ (∀ q, RequestRingPasses setup0 q) ∧ ProgressPasses setup0) ∧
      (¬ WindowPasses (setup0.set 4 8) 0 ∧ WindowPasses (setup0.set 4 16) 0) ∧
      (¬ RequestRingPasses (setup0.set 0x64 3) 0 ∧ ¬ RequestRingPasses (setup0.set 0x60 16) 0) ∧
      (¬ CompletionRingPasses (setup0.set 0x108 0) 0 ∧ ¬ CompletionRingPasses (setup0.set 0xEC 3) 0) ∧
      ¬ ProgressPasses (setup0.set 0x10C 0xE0) := by
  refine ⟨⟨by unfold WindowPasses; decide +kernel, rings_pass (by decide +kernel), by unfold ProgressPasses; decide +kernel⟩,
    ⟨by unfold WindowPasses; decide +kernel, by unfold WindowPasses; decide +kernel⟩,
    ⟨?_, fun h => absurd h.2.1 (by decide +kernel)⟩, ⟨?_, ?_⟩, by unfold ProgressPasses; decide +kernel⟩
  · intro h
    have e : (recHalf (setup0.set 0x64 3) (0x60 + 8 * (0 : RqNo).val + 4)).toNat = 3 := by decide +kernel
    have := h.1
    rw [e] at this
    exact not_ringSize_3 this
  · intro h
    exact absurd h.2.2 (by decide +kernel)
  · intro h
    have e : (recHalf (setup0.set 0xEC 3) (0xE8 + 8 * (0 : CqNo).val + 4)).toNat = 3 := by decide +kernel
    have := h.1
    rw [e] at this
    exact not_ringSize_3 this

theorem witness_LoadingEndsInRunning :
    (loading .setupRead none).resetHeld = false ∧ (loading .setupRead none).part = .loading ∧
      ((loading .setupRead none).result? .setupRead).map Result.data = some none ∧
      ((loading .setupRead (some setup0)).result? .setupRead).map Result.data = some (some setup0) ∧
      setupFailureAt setup0 = none ∧ setupFailureAt (setup0.set 0x10C 0xE0) = some 0x10C ∧ setupFailureAt (setup0.set 4 8) = some 4 ∧
      ((loading .zeroProgress (some [])).result? .zeroProgress).map Result.data = some (some []) := by decide +kernel

theorem witness_MatcherFollowsItsTable :
    (∀ l : Line, l = receiving (buf 0x200 6 (clean 2)) table46 [0x0D] [] →
      l.rx.bufs = buf 0x200 6 (clean 2) :: [] ∧ (buf 0x200 6 (clean 2)).cond = .started 2 ErrorSet.empty none ∧
        (∀ d ∈ l.rx.delims, d.bytes ≠ []) ∧
        l.rx.delims[0]? = some { bytes := [0x0D, 0x0A], action := .dropAndClose } ∧ [0x0D, 0x0A] <:+ l.rx.hold ++ [0x0A#8] ∧
        (∀ d ∈ l.rx.delims, d.bytes <:+ l.rx.hold ++ [0x0A#8] → d.bytes.length ≤ 2)) ∧
      (∀ d ∈ table46, ¬ d.bytes <:+ ([0x0D, 0x59] : List Byte)) ∧ ([] : List Byte) <:+ [0x0D, 0x59] ∧
      (∀ d ∈ table46, ¬ d.bytes <:+ ([0x0D] : List Byte)) ∧ (∃ d ∈ table46, 1 < d.bytes.length ∧ [0x0D#8] <+: d.bytes) ∧
      (buf 0x202 6 (clean 5)).len = 5 + ([0x0D] : List Byte).length :=
  ⟨fun l h => by subst h; decide +kernel, by decide +kernel, by decide +kernel, by decide +kernel, by decide +kernel,
    by decide +kernel⟩

theorem witness_WriterTakesCharacters :
    (∀ s : State, s = withLine0 lossLf → s.resetHeld = false ∧ (s.line 0).rx.fifo = .char 0x0A false false true :: [] ∧
      (s.line 0).state = .opened ∧ (s.line 0).rx.slot = none ∧
      (s.line 0).rx.bufs.head?.map RxBuf.isInvalid = some false ∧ (s.line 0).rx.inFlight = none) ∧
      (buf 0x302 6 (clean 1)).cond = .started 1 ErrorSet.empty none ∧ (buf 1 1 .waiting).cond = .waiting ∧
      inFlight16.rx.slot ≠ none :=
  ⟨fun s h => by subst h; decide +kernel, rfl, rfl, by decide +kernel⟩

theorem witness_WriterTakesMarkers :
    (∀ l : Line, l = { getCr with rx := { getCr.rx with fifo := [.gap false] } } →
      l.rx.fifo = .gap false :: [] ∧ l.state = .opened ∧ l.rx.slot = none ∧ l.rx.inFlight = none ∧ l.hasStarted = true) ∧
      (idleBreak.rx.fifo = .brk true :: [] ∧ idleBreak.state = .opened ∧ idleBreak.rx.bufs = [] ∧ idleBreak.hasStarted = false) ∧
      (inFlight16.rx.slot ≠ none ∧ inFlight16.rx.inFlight ≠ none ∧ ¬ 9 < inFlight16.rx.chunk.length ∧ Line.reset.state = .closed) :=
  ⟨fun l h => by subst h; decide +kernel, by decide +kernel, by decide +kernel⟩

theorem witness_InvalidRecordAnswered :
    (∀ l : Line, l = receiving (buf 0x77 0 (.invalid .badRecord)) [] [] [] →
      l.rx.bufs = buf 0x77 0 (.invalid .badRecord) :: [] ∧ l.rx.slot = none ∧ inSession l.state = true) ∧
      (stalled.state = .closing ∧ stalled.windingUp = false) ∧ woundUp.windingUp = true ∧ Line.reset.state = .closed ∧
      inFlight16.rx.slot ≠ none :=
  ⟨fun l h => by subst h; decide +kernel, by decide +kernel, by decide +kernel, rfl, by decide +kernel⟩

theorem witness_BuffersAnsweredAndWritten :
    (∀ l : Line, l = closingLine .immediate .windUp .noRequest { RxSide.reset with bufs := [buf 1 40 (clean 23), buf 2 40 .waiting] }
      TxSide.reset → l.windingUp = true ∧ l.rx.slot = none ∧ l.rx.bufs = buf 1 40 (clean 23) :: [buf 2 40 .waiting]) ∧
      (∀ s : State, s = withResult (withLine0 inFlight16) (.chunk 0) none → s.resetHeld = false ∧ (s.line 0).rx.inFlight = some 16 ∧
        (s.result? (.chunk 0)).map Result.data = some none ∧
        (s.line 0).rx.slot =
          some { dest := 1, time := 0, body := .rxDone 0 0x400 40 .full ErrorSet.empty none none }) :=
  ⟨fun l h => by subst h; decide +kernel, fun s h => by subst h; decide +kernel⟩

theorem witness_WindUpEndsTheClose :
    (∀ s : State, s = withLine0 woundUp → s.resetHeld = false ∧ (s.line 0).windingUp = true ∧ (s.line 0).rx.bufs = [] ∧
      (s.line 0).rx.slot = none ∧ (s.line 0).tx.slot = none ∧ (s.line 0).events = [] ∧ (s.line 0).tx.output = .mark ∧
      (∀ c : CqNo, ∀ e ∈ (s.cq c).staging, producerOfLine 0 e.producer = false) ∧ (s.rq (txq 0)).fetch = false ∧
      (s.rq (rpq 0)).fetch = false) ∧ (withLine0 stalled).resetHeld = false ∧ stalled.windingUp = false ∧
      stopping.part = .stopping :=
  ⟨fun s h => by subst h; decide +kernel, rfl, by decide +kernel, rfl⟩

theorem witness_OfferAdmitsOrWaits :
    (∀ s : State, s = offering 7 → s.resetHeld = false ∧ s.readyRecord (.events 2) = some (someCpl 1) ∧ s.part = .running ∧
      Producer.events 2 ∉ (s.cq 1).waiting ∧ (s.cq 1).staging.length < 8 ∧ (s.cq 1).waiting = []) ∧
      ((offering 8).readyRecord (.events 2) = some (someCpl 1) ∧ ¬((offering 8).cq 1).staging.length < 8) :=
  ⟨fun s h => by subst h; decide +kernel, by decide +kernel⟩

theorem witness_EntryWritesAndModeration :
    (∀ s : State, s = withResult (run0.setCq 1 (cq88 3 7 8 [] .body .armed)) (.body 1) (some []) → s.resetHeld = false ∧
      (s.cq 1).staging = staged1 :: List.replicate 7 staged1 ∧ (s.cq 1).write = .body ∧
      (s.result? (.body 1)).map Result.data = some (some [])) ∧
      ((step3.cq 1).write = .headWord ∧ (step3.result? (.headWord 1)).map Result.data = some (some []) ∧
        (step3.cq 1).size = some 8 ∧ (step3.cq 1).notif = .armed ∧ (step3.cq 1).tail + 1 = 8) ∧
      (∀ s : State, s = withResult { run0 with progressActive := true } .progress (some []) → s.progressActive = true ∧
        (s.result? .progress).map Result.data = some (some [])) ∧
      (twoProgress.progressActive = true ∧ (twoProgress.dropResult .progress).result? .progress ≠ none) ∧
      ((step3.cq 1).waiting = .events 2 :: [.rxSlot 2] ∧ step3.readyRecord (.events 2) = some (someCpl 1) ∧
        (run0.cq 1).waiting = [] ∧ run0.part = .running) ∧
      ((run0.cq 1).timer = none ∧ (step3.cq 1).timer ≠ none) :=
  ⟨fun s h => by subst h; decide +kernel, by decide +kernel, fun s h => by subst h; decide +kernel, by decide +kernel,
    by decide +kernel, by decide +kernel⟩

theorem witness_StoppingEndsInStopped :
    (∀ s : State, s = { run0 with part := .stopping, stopLimit := some 1 } → s.resetHeld = false ∧ s.part = .stopping ∧
      (∀ i, (s.line i).state = .closed ∧ (s.line i).rx.slot = none ∧ (s.line i).tx.slot = none ∧ (s.line i).events = []) ∧
      s.control.st = .idle ∧ s.control.slot = none ∧ (∀ c, (s.cq c).staging = [] ∧ (s.cq c).waiting = []) ∧
      s.engine.access = none ∧
      (s.engine.listA = [] ∧ s.engine.listB = [] ∧ s.engine.listC = [] ∧ s.engine.listD = []) ∧ s.engine.results = []) ∧
      (stopping.stopLimit ≠ none ∧ (stopping.line 0).state = .closing ∧ (stopping.line 1).state = .closed) :=
  ⟨fun s h => by subst h; decide +kernel, by decide +kernel⟩

theorem witness_RangeNeedsOneWindow :
    1 ≤ 0x900 ∧ rangeAllowed run0.windows false 0x10F00 0x900 = true ∧ rangeAllowed run0.windows false 0x10F00 0x901 = false := by
  decide +kernel

theorem witness_LineMakesItsRequests :
    (open0 = (withLine0 open0).line 0 ∧ ∃ t, LineTakes 0 (withLine0 open0) t open0) ∧ (stalled.draining = true ∧ stalled.close.boundary = none) ∧
      (drained.draining = true ∧ drained.tx.st = .idle ∧ drained.tx.cur = none ∧ drained.close.boundary = some 1) ∧
      ({ open0 with long := .flushTx 1, tx := { TxSide.reset with flushPhase := some .fetching, flushBoundary := some 0 } } : Line).flushing
        = true :=
  ⟨⟨by decide +kernel, _, settleLine_takes (withLine0 open0) 0⟩, by decide +kernel, by decide +kernel, by decide +kernel⟩

/-! The invariants: a state beyond reset that has each of them and takes a step. -/

theorem witness_StepKeepsMemoryOrdered :
    MemoryOrdered { run0 with mem := [(16, 7), (17, 8)] } ∧ ∃ t, step { run0 with mem := [(16, 7), (17, 8)] } = .next t :=
  ⟨by unfold MemoryOrdered; decide +kernel, _, rfl⟩

/-- A part with line 0 OPEN, its FIFO at 32 entries. -/
def fullPart : State := withLine0 (full27 .hunt)

theorem witness_StepKeepsCapacities :
    WithinCapacity fullPart ∧ TransmitFifoBounded fullPart ∧ ∃ t, step fullPart = .next t := by
  refine ⟨by unfold WithinCapacity; decide +kernel, ⟨by decide +kernel, ?_, ?_, ?_⟩, _, rfl⟩
  · intro r h; simp [fullPart, withLine0, State.setLine, run0, State.reset, Engine.reset] at h
  · intro a h; simp [fullPart, withLine0, State.setLine, run0, State.reset, Engine.reset] at h
  · intro x h; simp [fullPart, withLine0, State.setLine, run0, State.reset, Engine.reset] at h

theorem witness_StepKeepsClosedLinesAndFlow :
    ClosedLinesEmpty (withLine0 stalled) ∧ FlowCombinations (withLine0 stalled) ∧ ∃ t, step (withLine0 stalled) = .next t :=
  ⟨by unfold ClosedLinesEmpty; decide +kernel, by unfold FlowCombinations; decide +kernel, _, rfl⟩

/-- The lines of a part with a line 0. -/
theorem withLine0_line (l : Line) (i : LineNo) : (withLine0 l).line i = if i = 0 then l else Line.reset := by
  fin_cases i <;> rfl

theorem witness_StepKeepsTheTransmitter :
    (TransmitterAgrees (withLine0 lastOf0700) ∧ ReadsAccounted (withLine0 lastOf0700)) ∧
      ∃ t, step (withLine0 lastOf0700) = .next t := by
  refine ⟨⟨fun i => ⟨?_, ?_, ?_, ?_, ?_, fun bits => ?_, ?_⟩, fun i => ⟨?_, ?_, ?_⟩⟩, _, rfl⟩
  · revert i; decide +kernel
  · revert i; decide +kernel
  · revert i; decide +kernel
  · revert i; decide +kernel
  · revert i; decide +kernel
  · rw [withLine0_line]
    split
    · exact fun _ => rfl
    · intro h; cases h
  · revert i; decide +kernel
  · rw [withLine0_line]
    split
    · intro c hc _
      cases hc
      exact ⟨by decide +kernel, by decide +kernel⟩
    · intro c hc; cases hc
  · rw [withLine0_line]
    split
    · unfold Line.readsOwned; decide +kernel
    · unfold Line.readsOwned; decide +kernel
  · have h : ((withLine0 lastOf0700).line i).tx.readInFlight = none := by revert i; decide +kernel
    have e : (withLine0 lastOf0700).engine = Engine.reset := rfl
    rw [State.readsTied, h, e]
    simp [Engine.requests, Engine.reset]

theorem witness_StepKeepsTheBufferSide :
    BufferSideAgrees (withLine0 getCr) ∧ ∃ t, step (withLine0 getCr) = .next t := by
  refine ⟨fun i => ⟨?_, ?_, ?_, ?_, ?_, ?_, ?_⟩, _, rfl⟩
  · revert i; decide +kernel
  · revert i; decide +kernel
  · revert i; decide +kernel
  · rw [withLine0_line]
    split <;> simp [getCr, receiving, openLine, Line.reset, RxSide.reset]
  · revert i; decide +kernel
  · revert i; decide +kernel
  · revert i; decide +kernel

/-- CMQ1 of the example of section 8.8, ARMED, with its body in writing. -/
def armed1 : State := run0.setCq 1 (cq88 3 7 8 [] .body .armed)

theorem witness_StepKeepsTheRings :
    (RequestRingsInRange halted14 ∧ ∃ t, step halted14 = .next t) ∧
      CompletionRingsInRange armed1 ∧ ArmedBelowThreshold armed1 ∧ (armed1.cq 1).notif = .armed ∧
      ∃ t, step armed1 = .next t := by
  refine ⟨⟨fun q => ⟨?_, ?_⟩, _, rfl⟩, fun c => ⟨?_, ?_⟩, by unfold ArmedBelowThreshold; decide +kernel, by decide +kernel,
    _, rfl⟩
  · intro n h
    have := (by decide +kernel : ∀ q : RqNo, (halted14.rq q).head < (halted14.rq q).size.getD 0 ∧
      (halted14.rq q).tail < (halted14.rq q).size.getD 0) q
    simpa [h] using this
  · revert q; decide +kernel
  · intro n h
    have := (by decide +kernel : ∀ c : CqNo, (armed1.cq c).head < 8 ∧ (armed1.cq c).tail < 8 ∧ (armed1.cq c).size = some 8) c
    rw [this.2.2] at h
    cases h
    exact ⟨this.1, this.2.1⟩
  · revert c; decide +kernel

theorem witness_StepKeepsTheRateTable :
    RateTableValid (discovering .seek .idle Discovery.reset) ∧ HoldingGuardsTable (discovering .seek .idle Discovery.reset) ∧
      ((discovering .seek .idle Discovery.reset).line 4).discovering = true ∧
      ∃ t, step (discovering .seek .idle Discovery.reset) = .next t ∧ (t.line 4).discovering = true := by
  refine ⟨⟨by decide +kernel, by decide +kernel⟩, ?_, by decide +kernel, _, rfl, by decide +kernel⟩
  intro h
  exact absurd h (by decide +kernel)

end Sys2Proof.Tests
end

section
/-! SUPPORT. The receive writer's rules: when it may take an entry, what taking a marker leaves of the line, and what the
commands of the writer and of the answer to an invalid record do, one equation per command. -/

namespace Sys2Proof.Machine

/-! ### A command as one happening, and the front entry -/

/-- Outside reset a command is taken. -/
theorem take_of_running {s : State} (h : s.resetHeld = false) (f : State → State) : s.take f = .next (f s) := by
  simp [State.take, h]

/-- A happening that changes nothing changes nothing in reset either. -/
theorem take_of_fixed {s : State} {f : State → State} (h : f s = s) : s.take f = .next s := by
  simp [State.take, h]

theorem popFifo_cons {l : Line} {x : FifoEntry} {es : List FifoEntry} (h : l.rx.fifo = x :: es) :
    l.popFifo = { l with rx := { l.rx with fifo := es } } := by
  simp [Line.popFifo, h]

/-- The falling test acts on the flow logic alone (R101). -/
theorem flowFall_eq (l : Line) : l.flowFall = { l with flow := l.flowFall.flow } := by
  unfold Line.flowFall
  repeat' split
  all_goals rfl

@[simp] theorem flowFall_rx (l : Line) : l.flowFall.rx = l.rx := by rw [flowFall_eq]

@[simp] theorem flowFall_set (l : Line) : l.flowFall.set = l.set := by rw [flowFall_eq]

@[simp] theorem flowFall_events (l : Line) : l.flowFall.events = l.events := by rw [flowFall_eq]

@[simp] theorem flowFall_counters (l : Line) : l.flowFall.counters = l.counters := by rw [flowFall_eq]

/-! ### When the writer may take an entry -/

theorem frontInvalid_iff (l : Line) :
    l.frontInvalid = true ↔ l.rx.bufs.head?.map RxBuf.isInvalid = some true := by
  cases h : l.rx.bufs.head? <;> simp [Line.frontInvalid, h]

theorem frontInvalid_of_invalid {l : Line} {b : RxBuf} {rest : List RxBuf} {f : RecordFault}
    (hb : l.rx.bufs = b :: rest) (hc : b.cond = .invalid f) : l.frontInvalid = true := by
  simp [Line.frontInvalid, hb, RxBuf.isInvalid, hc]

/-- R58 and R64, but for what a CHARACTER entry needs. -/
theorem writerMayTake_iff (l : Line) :
    l.writerMayTake = true ↔ (l.state = .opened ∨ l.draining = true) ∧ l.rx.slot = none ∧
      l.rx.bufs.head?.map RxBuf.isInvalid ≠ some true ∧ ¬(l.rx.inFlight ≠ none ∧ 9 < l.rx.chunk.length) := by
  rw [Ne, ← frontInvalid_iff]
  cases h : l.rx.inFlight <;> simp [Line.writerMayTake, h, and_assoc]

/-- The writer takes nothing past an invalid front record (R57). -/
theorem writerMayTake_of_frontInvalid {l : Line} (h : l.frontInvalid = true) : l.writerMayTake = false := by
  simp [Line.writerMayTake, h]

/-! ### The writer's commands -/

/-- The command that takes a GAP marker, or a BREAK marker. -/
def takeMarkerCommand (gap : Bool) (i : LineNo) : Instr := if gap then .takeGapMarker i else .takeBreakMarker i

/-- The writer takes a GAP marker, or a BREAK marker (R60, R61). -/
def Line.takeMarker (l : Line) (gap : Bool) (i : LineNo) (time : Word) (loss : Bool) : Line :=
  if gap then l.takeGap i time loss else l.takeBreak i time loss

/-- A marker at the front of the FIFO is taken when the writer may take it, and stays otherwise. -/
theorem exec_takeMarker {s : State} {i : LineNo} {gap loss : Bool} {es : List FifoEntry} (hr : s.resetHeld = false)
    (hf : (s.line i).rx.fifo = (if gap then .gap loss else .brk loss) :: es) :
    exec (takeMarkerCommand gap i) s = .next (if (s.line i).writerMayTake then
      s.onLine i fun l => l.popFifo.flowFall.takeMarker gap i s.time loss else s) := by
  cases gap with
  | true =>
    show execTakeGapMarker i s = _
    rw [execTakeGapMarker, take_of_running hr]
    simp [hf, Line.takeMarker]
  | false =>
    show execTakeBreakMarker i s = _
    rw [execTakeBreakMarker, take_of_running hr]
    simp [hf, Line.takeMarker]

section
variable {s : State} {i : LineNo}

/-- Without the writer's conditions a CHARACTER entry stays. -/
theorem exec_takeCharacterEntry_stays (h : (s.line i).writerMayTake = false) :
    exec (.takeCharacterEntry i) s = .next s := by
  show execTakeCharacterEntry i s = _
  refine take_of_fixed ?_
  dsimp only
  split <;> simp [h]

/-- Without the writer's conditions a GAP marker stays. -/
theorem exec_takeGapMarker_stays (h : (s.line i).writerMayTake = false) : exec (.takeGapMarker i) s = .next s := by
  show execTakeGapMarker i s = _
  refine take_of_fixed ?_
  dsimp only
  split <;> simp [h]

/-- Without the writer's conditions a BREAK marker stays. -/
theorem exec_takeBreakMarker_stays (h : (s.line i).writerMayTake = false) :
    exec (.takeBreakMarker i) s = .next s := by
  show execTakeBreakMarker i s = _
  refine take_of_fixed ?_
  dsimp only
  split <;> simp [h]

end

/-! ### A marker taken with a started buffer -/

section
variable {l : Line} {b : RxBuf} {rest : List RxBuf} {n : Nat} {e : ErrorSet} {f : Option Nat}

theorem hasStarted_of_started (hb : l.rx.bufs = b :: rest) (hc : b.cond = .started n e f) : l.hasStarted = true := by
  simp [Line.hasStarted, hb, hc]

/-- Releasing an empty hold changes nothing. -/
theorem releaseHold_storing (bs : List Byte) :
    (l.storing b rest n bs e f []).releaseHold = l.storing b rest n bs e f [] := by
  refine (releaseHold_started (storing_bufs _ _) rfl).trans ((storing_storing _ _ _ _ _ _).trans ?_)
  rw [show (l.storing b rest n bs e f []).rx.hold = [] from rfl, List.append_nil]

/-- A loss or none joins the summary at the stored count once the hold is released (R60, R61, R72). -/
theorem releaseHold_noteLoss_started (hb : l.rx.bufs = b :: rest) (hc : b.cond = .started n e f) (loss : Bool)
    {x : ErrorSet × Option Nat}
    (hx : x = summaryWith e f { parity := false, framing := false, overrun := loss } (n + l.rx.hold.length)) :
    l.releaseHold.noteLoss loss = l.storing b rest n l.rx.hold x.1 x.2 [] := by
  have hrel := releaseHold_started hb hc
  subst hx
  cases loss with
  | false =>
    have hsum : summaryWith e f { parity := false, framing := false, overrun := false } (n + l.rx.hold.length) = (e, f) := by
      simp [summaryWith, ErrorSet.empty]
    rw [hsum]
    exact hrel
  | true =>
    simp only [Line.noteLoss, if_true, hrel, releaseHold_storing]
    rw [stored_started (storing_bufs _ _) rfl, addErrors_started (storing_bufs _ _) rfl, storing_storing, List.append_nil]
    rfl

/-- The close of a started buffer by a marker (R60, R61). -/
theorem noteLoss_closeBuffer_started (hb : l.rx.bufs = b :: rest) (hc : b.cond = .started n e f) (i : LineNo)
    (time : Word) (loss : Bool) (reason : RxReason) {x : ErrorSet × Option Nat}
    (hx : x = summaryWith e f { parity := false, framing := false, overrun := loss } (n + l.rx.hold.length)) :
    (l.releaseHold.noteLoss loss).closeBuffer i time reason none =
      l.closing i time b rest n l.rx.hold x.1 x.2 reason none := by
  rw [releaseHold_noteLoss_started hb hc loss hx, closeBuffer_started (storing_bufs _ _) rfl, storing_closing,
    List.append_nil]

theorem takeMarker_started (hb : l.rx.bufs = b :: rest) (hc : b.cond = .started n e f) (gap : Bool) (i : LineNo)
    (time : Word) (loss : Bool) {x : ErrorSet × Option Nat}
    (hx : x = summaryWith e f { parity := false, framing := false, overrun := loss } (n + l.rx.hold.length)) :
    l.takeMarker gap i time loss =
      { l.closing i time b rest n l.rx.hold x.1 x.2 (if gap then .gap else .brk) none with
        counters := { l.counters with
          gapCloses := if gap then satInc l.counters.gapCloses else l.counters.gapCloses } } := by
  have hs := hasStarted_of_started hb hc
  have hclose := fun reason => noteLoss_closeBuffer_started hb hc i time loss reason hx
  cases gap with
  | true =>
    simp only [Line.takeMarker, Line.takeGap, hs, if_true, hclose]
    rfl
  | false =>
    simp only [Line.takeMarker, Line.takeBreak, hs, if_true, hclose, Bool.false_eq_true, if_false]
    rfl

end

/-! ### A marker taken without a started buffer -/

theorem carryLoss_eq (l : Line) (loss : Bool) :
    l.carryLoss loss = { l with rx := { l.rx with lossCarried := l.rx.lossCarried || loss } } := by
  cases loss <;> simp [Line.carryLoss]

/-- The loss is carried, and a BREAK appends BREAK_IDLE (R60, R61, R13). -/
theorem takeMarker_unstarted {l : Line} (h : l.hasStarted = false) (gap : Bool) (i : LineNo) (time : Word)
    (loss : Bool) :
    l.takeMarker gap i time loss = if gap then l.carryLoss loss
      else (l.carryLoss loss).appendEvent { dest := l.set.boundCq, time := time, body := .breakIdle i } := by
  cases gap with
  | true => simp [Line.takeMarker, Line.takeGap, h]
  | false =>
    simp only [Line.takeMarker, Line.takeBreak, h, carryLoss_eq, Line.appendEvent, Line.event, Bool.false_eq_true,
      if_false]
    split <;> rfl

/-! ### The answer to an invalid record -/

/-- An invalid front record is answered with its fault and count 0 (R57). -/
theorem answerBuffer_invalid {l : Line} {b : RxBuf} {rest : List RxBuf} {f : RecordFault} (hb : l.rx.bufs = b :: rest)
    (hc : b.cond = .invalid f) (i : LineNo) (time : Word) :
    l.answerBuffer i time = { l with rx := { l.rx with
      bufs := rest
      slot := some { dest := l.set.boundCq, time := time
                     body := .rxDone i b.tag 0 f.reason ErrorSet.empty none none } } } := by
  simp [Line.answerBuffer, Line.answerFront, Line.rxDone, hb, hc]

/-- Where an invalid front record is answered: with an empty slot, on a line neither CLOSED nor in its wind-up (R57). -/
theorem mayAnswerInvalid_iff {l : Line} (h : l.frontInvalid = true) :
    l.mayAnswerInvalid = true ↔ l.state ≠ .closed ∧ l.windingUp = false ∧ l.rx.slot = none := by
  simp [Line.mayAnswerInvalid, h, and_assoc]

/-- A line in SEEK, TRIAL or OPEN is neither CLOSED nor in a wind-up. -/
theorem not_closed_not_windingUp_of_inSession {l : Line} (h : inSession l.state = true) :
    l.state ≠ .closed ∧ l.windingUp = false := by
  rcases of_decide_eq_true h with hs | hs | hs <;> simp [Line.windingUp, hs]

theorem exec_answerInvalidRecord {s : State} (hr : s.resetHeld = false) (i : LineNo) :
    exec (.answerInvalidRecord i) s = .next (if (s.line i).mayAnswerInvalid then
      s.onLine i fun l => l.answerBuffer i s.time else s) :=
  take_of_running hr _

theorem exec_windUpBufferAnswer {s : State} (hr : s.resetHeld = false) (i : LineNo) :
    exec (.windUpBufferAnswer i) s = .next (if (s.line i).windingUp ∧ (s.line i).rx.slot = none ∧ (s.line i).rx.bufs ≠ []
      then s.onLine i fun l => l.answerBuffer i s.time else s) :=
  take_of_running hr _

end Sys2Proof.Machine
end

section
/-! The settled statements: the receive writer and markers, and the answer to an invalid record. -/

namespace Sys2Proof.Machine

/-- Settles O43: the writer's conditions decide whether the marker is taken, and its effect goes by whether the front
record is started. -/
theorem writerTakesMarkers : Obligations.WriterTakesMarkers := by
  unfold Obligations.WriterTakesMarkers
  intro s i l gap loss es c hr hl hf hc
  subst hl
  have hexec := exec_takeMarker hr hf
  rw [show takeMarkerCommand gap i = c from hc.symm] at hexec
  split
  next hmay =>
    rw [if_pos ((writerMayTake_iff _).2 hmay)] at hexec
    refine ⟨_, _, hexec, onLine_takes s i _, fun l0 hl0 => ?_⟩
    rw [popFifo_cons hf, ← hl0]
    have hrx : l0.rx = { (s.line i).rx with fifo := es } := by rw [hl0, flowFall_rx]
    have hset : l0.set = (s.line i).set := by rw [hl0, flowFall_set]
    have hcnt : l0.counters = (s.line i).counters := by rw [hl0, flowFall_counters]
    refine ⟨fun b rest n e f hb hcond x hx => ?_, fun hns l1 hl1 => ?_⟩
    · have hb0 : l0.rx.bufs = b :: rest := by rw [hrx, hb]
      have hx0 : x = summaryWith e f { parity := false, framing := false, overrun := loss } (n + l0.rx.hold.length) := by
        rw [hrx, hx]
      rw [takeMarker_started hb0 hcond gap i s.time loss hx0, hrx, hcnt]
    · have hns0 : l0.hasStarted = false := by rw [Line.hasStarted, hrx]; exact hns
      have hcarry : l0.carryLoss loss = l1 := by rw [carryLoss_eq, hl1, hrx]
      rw [takeMarker_unstarted hns0, hcarry, hset, Line.appendEvent]
      have hev : l1.events = (s.line i).events := by rw [hl1, hl0, flowFall_events]
      have hcnt1 : l1.counters = (s.line i).counters := by rw [hl1, hcnt]
      rw [hev, hcnt1]
  next hmay =>
    rwa [if_neg (mt (writerMayTake_iff _).1 hmay)] at hexec

/-- Settles O44: the answer's own conditions, the writer's refusal at an invalid front record, and the wind-up's answer,
which has the same effect. -/
theorem invalidRecordAnswered : Obligations.InvalidRecordAnswered := by
  unfold Obligations.InvalidRecordAnswered
  intro s i l b rest f hr hl hb hc l1 hl1
  subst hl
  have hinv := frontInvalid_of_invalid hb hc
  have hmay := mayAnswerInvalid_iff hinv
  have hstays := writerMayTake_of_frontInvalid hinv
  have hanswer : (s.line i).answerBuffer i s.time = l1 := by
    rw [answerBuffer_invalid hb hc, hl1]
    cases f <;> rfl
  refine ⟨fun hslot hstate => ?_, fun hno => ?_, ⟨exec_takeCharacterEntry_stays hstays, exec_takeGapMarker_stays hstays,
    exec_takeBreakMarker_stays hstays⟩, fun hslot hwind => ?_⟩
  · have hopen : (s.line i).state ≠ .closed ∧ (s.line i).windingUp = false := by
      rcases hstate with hin | ⟨hclosing, hnw⟩
      · exact not_closed_not_windingUp_of_inSession hin
      · exact ⟨by simp [hclosing], hnw⟩
    refine lineTakes_of (fun l => l.answerBuffer i s.time) ((exec_answerInvalidRecord hr i).trans ?_) hanswer
    rw [if_pos (hmay.2 ⟨hopen.1, hopen.2, hslot⟩)]
  · rw [exec_answerInvalidRecord hr, if_neg]
    rw [hmay]
    rintro ⟨hopen, hnw, hslot⟩
    rcases hno with h | h | h
    · exact h hslot
    · exact hopen h
    · simp [hnw] at h
  · refine lineTakes_of (fun l => l.answerBuffer i s.time) ((exec_windUpBufferAnswer hr i).trans ?_) hanswer
    rw [if_pos ⟨hwind, hslot, by simp [hb]⟩]

end Sys2Proof.Machine
end

section
/-! SUPPORT. The window check: what one window grants, and when a range of at least one byte is allowed. -/

namespace Sys2Proof.Machine

/-- R167, R168. A used window grants a range by its last byte: with a length other than 0 its last byte is at base + length
− 1, so the model's comparison of the ends and the spec's comparison of the last bytes agree. -/
theorem Window.grants_iff (w : Window) (toWrite : Bool) (a : Nat) {n : Nat} (hn : 1 ≤ n) :
    w.grants toWrite a n = true ↔ w.len ≠ 0 ∧ (if toWrite then w.write else w.read) = true ∧ w.base.toNat ≤ a ∧
      a + n - 1 ≤ w.base.toNat + w.len.toNat - 1 := by
  have hlast : w.len ≠ 0 → (a + n ≤ w.base.toNat + w.len.toNat ↔ a + n - 1 ≤ w.base.toNat + w.len.toNat - 1) := by
    intro hlen
    have hpos : w.len.toNat ≠ 0 := fun h => hlen (BitVec.eq_of_toNat_eq h)
    omega
  simp only [Window.grants, Bool.and_eq_true, decide_eq_true_eq, and_assoc]
  exact and_congr_right fun hlen => by rw [hlast hlen]

/-- R168. A range of at least one byte is allowed when it ends at or below the highest address and one window grants it. -/
theorem rangeAllowed_iff (ws : List Window) (toWrite : Bool) (a : Word) {n : Nat} (hn : 1 ≤ n) :
    rangeAllowed ws toWrite a n = true ↔
      a.toNat + n - 1 ≤ 0xFFFFFFFF ∧ ∃ w ∈ ws, w.grants toWrite a.toNat n = true := by
  have htop : a.toNat + n ≤ maxAddress + 1 ↔ a.toNat + n - 1 ≤ 0xFFFFFFFF := by
    unfold maxAddress
    omega
  simp only [rangeAllowed, hn, decide_true, Bool.true_and, Bool.and_eq_true, decide_eq_true_eq, htop, List.any_eq_true]

end Sys2Proof.Machine
end

section
/-! The settled statement: the window check. -/

namespace Sys2Proof.Machine

/-- Settles O50: the window rule `rangeAllowed_iff`, with each window's grant spelled by its last byte, for each of
the two permissions. -/
theorem rangeNeedsOneWindow : Obligations.RangeNeedsOneWindow := by
  unfold Obligations.RangeNeedsOneWindow
  intro ws a n hn
  constructor
  case left => simpa only [Window.grants_iff _ _ _ hn, Bool.false_eq_true, if_false] using rangeAllowed_iff ws false a hn
  case right => simpa only [Window.grants_iff _ _ _ hn, if_true] using rangeAllowed_iff ws true a hn

end Sys2Proof.Machine
end

section
/-! SUPPORT. What one taking can do, said once. `Move` lists the elementary changes that the takings of the part are made
of, each with the conditions under which the model makes it; `exec_cases` says that every command is a row of such moves,
one of the two resets, or a write of SETUP_ADDR. The invariants of the whole machine are proved move by move. -/

namespace Sys2Proof.Machine

/-! ### The moves -/

/-- The two states agree in everything that an invariant speaks of. -/
structure SameCore (s t : State) : Prop where
  part : t.part = s.part
  lines : t.lines = s.lines
  reqQueues : t.reqQueues = s.reqQueues
  cplQueues : t.cplQueues = s.cplQueues
  windows : t.windows = s.windows
  engine : t.engine = s.engine
  rateTable : t.rateTable = s.rateTable
  control : t.control = s.control
  mem : t.mem = s.mem

/-- What only the RESET# pin, the resets and a write of SETUP_ADDR change. -/
structure KeepsSetup (s t : State) : Prop where
  pending : t.pending = s.pending
  resetHeld : t.resetHeld = s.resetHeld
  setupAddr : t.setupAddr = s.setupAddr

/-- The changes of a line's context after which the line has nothing to do at once, or does it in a later move. -/
inductive QuietMove (s : State) (i : LineNo) : Line → Prop
  | clearCounters : QuietMove s i { s.line i with counters := Counters.reset }
  | breakEnds : (s.line i).state = .opened →
      QuietMove s i (Line.gapRestart { s.line i with rx := { (s.line i).rx with asm := .hunt } })
  | measure : (s.line i).state = .seek →
      QuietMove s i { s.line i with disc := { (s.line i).disc with measuring := true } }
  | assembler (a : AsmState) : QuietMove s i { s.line i with rx := { (s.line i).rx with asm := a } }
  | finishClose (stopped : Bool) : s.windUpDone i = true → QuietMove s i ((s.line i).finishClose i s.time stopped)
  | giveUpRx : (s.line i).rx.chunk = [] → (s.line i).rx.inFlight = none →
      QuietMove s i { s.line i with rx := { (s.line i).rx with slot := none } }
  | giveUpTx : (s.line i).tx.readInFlight = none →
      QuietMove s i { s.line i with tx := { (s.line i).tx with slot := none } }
  | giveUpEvent : QuietMove s i { s.line i with events := (s.line i).events.tail }

/-- The own effects of the happenings that a line takes and settles at once, each under the conditions of its command. -/
inductive LineMove (s : State) (i : LineNo) : Line → Prop
  | settle : LineMove s i (s.line i)
  | openLine (r : List Byte) : s.control.st = .idle → (s.line i).state = .closed →
      firstFailure (openChecks r s.rateTable) = none → LineMove s i ((s.line i).openWith r)
  | modify (r : List Byte) : inSession (s.line i).state = true → LineMove s i ((s.line i).modify r)
  | setDelims (r : List Byte) : inSession (s.line i).state = true → firstFailure (delimChecks r) = none →
      LineMove s i ((s.line i).setDelims r)
  | rediscover : s.control.st = .idle → (s.line i).state = .opened →
      firstFailure (rediscoverChecks (s.line i) s.rateTable) = none → LineMove s i ((s.line i).rediscover i s.time)
  | takeFlush (tag : Half) (tail : Nat) : inSession (s.line i).state = true →
      LineMove s i ((s.line i).takeFlush i s.time tag tail)
  | flushRx : (s.line i).state = .opened → LineMove s i ((s.line i).flushRx i s.time)
  | takeClose (m : CloseMode) (tag : Half) (limit tail : Nat) : inSession (s.line i).state = true →
      LineMove s i ((s.line i).takeClose i s.time m tag limit tail)
  | overtake (g tag : Half) : (s.line i).long = .closeLine .graceful g →
      LineMove s i ((s.line i).overtake i s.time g tag)
  | openChar (c : Received) : (s.line i).state = .opened →
      LineMove s i (Line.openChar { s.line i with rx := { (s.line i).rx with asm := .hunt } } c)
  | trialChar (c : Received) : (s.line i).state = .trial →
      LineMove s i ((s.line i).trialChar i s.time s.rateTable c)
  | openBreak : (s.line i).state = .opened → LineMove s i (s.line i).openBreak
  | failAttempt : (s.line i).state = .trial → LineMove s i ((s.line i).failAttempt i s.time)
  | takeInterval (ticks : Nat) : (s.line i).state = .seek →
      LineMove s i ((s.line i).takeInterval i s.time s.rateTable ticks)
  | gapExpire : (s.line i).state = .opened → LineMove s i (s.line i).gapExpire
  | failDiscovery (r : FailReason) : (s.line i).discovering = true →
      LineMove s i ((s.line i).failDiscovery i s.time r)
  | takeChar (v : Byte) (pe fe loss : Bool) : (s.line i).writerMayTake = true → (s.line i).frontValid = true →
      LineMove s i ((s.line i).popFifo.flowFall.takeChar i s.time v pe fe loss)
  | takeMarker (gap loss : Bool) : (s.line i).writerMayTake = true →
      LineMove s i ((s.line i).popFifo.flowFall.takeMarker gap i s.time loss)
  | answerBuffer : (s.line i).state ≠ .closed → (s.line i).rx.slot = none →
      LineMove s i ((s.line i).answerBuffer i s.time)
  | takeChunk (n : Nat) (ok : Bool) : (s.line i).rx.inFlight = some n →
      LineMove s i ((s.line i).takeChunk i s.time n ok)
  | dataSent (bits : List Bool) : (s.line i).tx.output = .data bits → LineMove s i ((s.line i).dataSent i s.time)
  | flowSent (c : FlowChar) (bits : List Bool) : (s.line i).tx.output = .flow c bits →
      LineMove s i ((s.line i).flowSent i s.time)
  | endBreak : (s.line i).tx.st = .brk → LineMove s i ((s.line i).stopBreak.endRecord i s.time .ok)
  | pauseExpire : (s.line i).flow.timer.isSome = true → LineMove s i ((s.line i).pauseExpire i s.time)
  | cutDrain : (s.line i).draining = true → LineMove s i ((s.line i).abort i s.time)
  | event (c : Completion) : LineMove s i ((s.line i).appendEvent c)

/-- Queue `x` when an entry of it has been written: the entry has left staging, the notification has taken it, and the
front waiting producer, if any, has left the waiting list and, with a record ready, has joined staging (R135, R140). -/
def CplQueue.writtenWith (x : CplQueue) (waiting : List Producer) (more : List Staged) : CplQueue :=
  { x.entryWritten.noteWritten with waiting := waiting, staging := x.staging.tail ++ more }

/-- One elementary change of the part. Only with `tbl` set it may replace or empty the rate table. -/
inductive Move (tbl : Bool) (s : State) : State → Prop
  -- registers, flags, timers of the part and pins
  | registers {t : State} : SameCore s t → KeepsSetup s t → Move tbl s t
  | part (p : PartState) : p ≠ .loading → Move tbl s { s with part := p }
  -- one line
  | quiet (i : LineNo) (l : Line) : QuietMove s i l → Move tbl s (s.setLine i l)
  | takes (i : LineNo) (l : Line) {t : State} : LineMove s i l → LineTakes i s t l → Move tbl s t
  | dataRead (i : LineNo) (n : Nat) (x : Result) {t : State} : (s.line i).tx.readInFlight = some n →
      s.result? (.dataRead i) = some x →
      LineTakes i (s.dropResult (.dataRead i)) t ((s.line i).takeRead i s.time x.data) → Move tbl s t
  | deliverRx (i : LineNo) (r : List Byte) {t : State} : (s.rq (rpq i)).fetch = true →
      (s.rq (rpq i)).isEmpty = false → (s.line i).acceptsRx = true →
      LineTakes i ((s.endFetch (rpq i)).advanceHead (rpq i)) t
        { s.line i with rx := { (s.line i).rx with
            bufs := (s.line i).rx.bufs ++ [checkRxBuf s.windows (rxBufOf r)] } } → Move tbl s t
  | answerTx (i : LineNo) (tag : Half) (st : Status) {t : State} : (s.rq (txq i)).fetch = true →
      (s.rq (txq i)).isEmpty = false → (s.line i).state ≠ .closed →
      LineTakes i ((s.endFetch (txq i)).advanceHead (txq i)) t ((s.line i).answerTx i s.time tag st) → Move tbl s t
  | acceptTx (i : LineNo) (r : TxRecord) {t : State} : (s.rq (txq i)).fetch = true →
      (s.rq (txq i)).isEmpty = false → (s.line i).wantsOrdinary (s.rq (txq i)).head = true →
      LineTakes i ((s.endFetch (txq i)).advanceHead (txq i)) t ((s.line i).acceptTx i s.time s.windows r) → Move tbl s t
  -- every line
  | stopLines : Move tbl s { s with
      part := .stopping, stopLimit := msTimer 100, lines := Vector.ofFn fun i => (s.line i).stopLine i s.time }
  | tick : Move tbl s { s with
      time := s.time + 1, stopLimit := tickTimer s.stopLimit, lines := s.lines.map Line.tick
      cplQueues := s.cplQueues.map fun x => { x with timer := tickTimer x.timer } }
  -- request queues
  | tail (q : RqNo) (n v : Nat) : s.part = .running → (s.rq q).size = some n → v < n →
      Move tbl s (s.setRq q { s.rq q with tail := v })
  | advanceHead (q : RqNo) : (s.rq q).isEmpty = false → Move tbl s (s.advanceHead q)
  | queueFlags (q : RqNo) (halted fetch : Bool) : (fetch = true → (s.rq q).fetch = true) →
      Move tbl s (s.setRq q { s.rq q with halted := halted, fetch := fetch })
  | askRpq (i : LineNo) : Move tbl s (s.askRpq i)
  | askTxq (i : LineNo) : Move tbl s (s.askTxq i)
  | askCtl : Move tbl s s.askCtl
  -- the Control Unit and the rate table
  | control (c : ControlUnit) : c.st = .idle ∨ (c.st = s.control.st ∧ c.req = s.control.req) →
      Move tbl s { s with control := c }
  | hold (r : List Byte) : (s.rq 0).fetch = false →
      ((reqCode r).toNat = 1 →
        (∀ i, (s.line i).discovering = false) ∧ 1 ≤ (recByte r 4).toNat ∧ (recByte r 4).toNat ≤ 12) →
      Move tbl s { s with control := { s.control with st := .holding, req := some r } }
  | rateTable (r bs : List Byte) : tbl = true → s.control.st = .holding → s.control.req = some r → (reqCode r).toNat = 1 →
      tableStatus (rateEntriesOf bs (recByte r 4).toNat) = .ok →
      Move tbl s { s with rateTable := rateEntriesOf bs (recByte r 4).toNat }
  -- the Memory Engine
  | request (r : Request) : (∀ i, r.requester ≠ .dataRead i) → Move tbl s (s.request r)
  | dropResult (w : Requester) : Move tbl s (s.dropResult w)
  | grant (r : Request) (e : Engine) : s.engine.access = none → s.engine.pick = some (r, e) →
      Move tbl s (({ s with engine := e } : State).beginAccess r)
  | readSetup (r : Request) : s.engine.access = none → r.requester = .setupRead → Move tbl s (s.beginAccess r)
  | accessEnds (a : Access) (data : Option (List Byte)) (m : List Host.Cell) (n : Nat) (rs : List Result) :
      s.engine.access = some a → (∀ bs k, data = some bs → a.request.transfer = .read k → bs.length = k) →
      (∀ bs ws, data = some bs → a.request.transfer = .write ws → bs = []) →
      (memWf s.mem = true → memWf m = true) →
      rs = s.engine.results ∨ (a.deliver = true ∧
        rs = s.engine.results ++ [{ requester := a.request.requester, addr := a.request.addr, data := data }]) →
      Move tbl s { s with mem := m, freeNext := n, engine := { s.engine with access := none, results := rs } }
  | discardAll : Move tbl s { s with engine := s.engine.discardAll }
  -- completion queues
  | retireHead (c : CqNo) (b : BitVec 4) (head : Half) (f : CplQueue → CplQueue) : c = Fin.ofNat 4 b.toNat →
      s.retirePasses b head = true → f = id ∨ f = CplQueue.arm →
      Move tbl s (s.setCq c (f { s.cq c with head := head.toNat }))
  | entryWrite (c : CqNo) (w : EntryWrite) : s.reporting = true ∨ (s.cq c).write ≠ .noWrite →
      Move tbl s (s.setCq c { s.cq c with write := w })
  | stage (c : CqNo) (e : Staged) : (s.cq c).staging.length < 8 →
      Move tbl s (s.setCq c { s.cq c with staging := (s.cq c).staging ++ [e] })
  | wait (c : CqNo) (p : Producer) : p ∉ (s.cq c).waiting →
      Move tbl s (s.setCq c { s.cq c with waiting := (s.cq c).waiting ++ [p] })
  | written (c : CqNo) (waiting : List Producer) (more : List Staged) : (s.cq c).write = .headWord →
      waiting <:+ (s.cq c).waiting → more.length ≤ 1 → Move tbl s (s.setCq c ((s.cq c).writtenWith waiting more))
  | moderate (c : CqNo) : Move tbl s (s.setCq c (s.cq c).moderate)
  -- the part states
  | enterLoading : tbl = true → Move tbl s s.enterLoading
  | failLoading : Move tbl s s.failLoading
  | install (r : List Byte) : s.part = .loading → setupFailureAt r = none → Move tbl s (s.install r)
  | enterFaulted (c : Cause) (addr : Word) : Move tbl s (s.enterFaulted c addr)
  | expireStopLimit : Move tbl s s.expireStopLimit
  | enterStopped : Move tbl s s.enterStopped

/-- A row of moves. -/
def Moves (tbl : Bool) : State → State → Prop := Relation.ReflTransGen (Move tbl)

/-- The values after a reset of the part, RESET# held or not, the cause kept or not (R190, R191). -/
def ResetValues (s t : State) : Prop :=
  t = { State.reset with
    resetHeld := t.resetHeld, cause := t.cause, faultAddr := t.faultAddr, rxd := s.rxd, mem := t.mem
    freeNext := t.freeNext, readData := s.readData, pending := s.pending } ∧
    (memWf s.mem = true → memWf t.mem = true)

variable {tbl : Bool}

theorem Move.moves {s t : State} (h : Move tbl s t) : Moves tbl s t := Relation.ReflTransGen.single h

theorem Moves.refl (s : State) : Moves tbl s s := Relation.ReflTransGen.refl

theorem Moves.trans {s t u : State} (h : Moves tbl s t) (h' : Moves tbl t u) : Moves tbl s u := Relation.ReflTransGen.trans h h'

theorem Moves.then {s t u : State} (h : Moves tbl s t) (m : Move tbl t u) : Moves tbl s u := Relation.ReflTransGen.tail h m

/-- What every move keeps, a row of moves keeps. -/
theorem Moves.keep {P : State → Prop} (hP : ∀ s t, Move tbl s t → P s → P t) {s t : State}
    (h : Moves tbl s t) (hs : P s) : P t := by
  induction h with
  | refl => exact hs
  | tail _ m ih => exact hP _ _ m ih

end Sys2Proof.Machine
end

section
/-! SUPPORT. Every command is a row of moves: first the shared operations, then the control requests, then the commands. -/

namespace Sys2Proof.Machine

variable {tbl : Bool} {s t : State}

/-! ### The shared operations as moves -/

/-- A change of registers alone. -/
theorem moves_registers (hc : SameCore s t) (hk : KeepsSetup s t) : Moves tbl s t := (Move.registers hc hk).moves

theorem moves_setRxd (i : LineNo) (v : Level) : Moves tbl s (s.setRxd i v) :=
  moves_registers ⟨rfl, rfl, rfl, rfl, rfl, rfl, rfl, rfl, rfl⟩ ⟨rfl, rfl, rfl⟩

theorem moves_settleLine (i : LineNo) : Moves tbl s (s.settleLine i) :=
  (Move.takes i _ .settle (settleLine_takes s i)).moves

theorem moves_onLine {i : LineNo} {f : Line → Line} (h : LineMove s i (f (s.line i))) : Moves tbl s (s.onLine i f) :=
  (Move.takes i _ h (onLine_takes s i f)).moves

theorem moves_updLine {i : LineNo} {f : Line → Line} (h : QuietMove s i (f (s.line i))) : Moves tbl s (s.updLine i f) :=
  (Move.quiet i _ h).moves

theorem moves_answer (r : List Byte) (st : Status) : Moves tbl s (s.answer r st) := (Move.control _ (.inl rfl)).moves

theorem moves_askFetches (i : LineNo) : Moves tbl s (s.askFetches i) :=
  (Move.askRpq i).moves.then (.askTxq i)

theorem moves_askConsumer (q : RqNo) : Moves tbl s (s.askConsumer q) := by
  unfold State.askConsumer
  split
  · exact Move.askCtl.moves
  · exact (Move.askTxq _).moves
  · exact (Move.askRpq _).moves

theorem moves_foldl_settleLine (is : List LineNo) : Moves tbl s (is.foldl State.settleLine s) := by
  induction is generalizing s with
  | nil => exact .refl _
  | cons i is ih => exact (moves_settleLine i).trans ih

/-- A body write begins, or nothing happens. -/
theorem moves_beginEntry (c : CqNo) : Moves tbl s (s.beginEntry c) := by
  unfold State.beginEntry
  dsimp only
  split
  · split
    next h => exact (Move.entryWrite c .body (.inl h.2.2)).moves.then (.request _ (by simp))
    · exact .refl _
  · exact .refl _

theorem moves_requestHeadWord {c : CqNo} (h : (s.cq c).write = .body) : Moves tbl s (s.requestHeadWord c) := by
  unfold State.requestHeadWord
  dsimp only
  split
  · exact (Move.entryWrite c .headWord (.inr (by simp [h]))).moves.then (.request _ (by simp))
  · exact .refl _

theorem moves_giveUp {p : Producer} {r : Completion} (h : s.readyRecord p = some r) : Moves tbl s (s.giveUp p) := by
  cases p with
  | rxSlot i =>
    have hready : (s.line i).rx.chunk = [] ∧ (s.line i).rx.inFlight = none := by
      by_contra hn
      simp [State.readyRecord, hn] at h
    exact (Move.quiet i _ (.giveUpRx hready.1 hready.2)).moves
  | txSlot i =>
    have hready : (s.line i).tx.readInFlight = none := by
      by_contra hn
      simp [State.readyRecord, hn] at h
    exact (Move.quiet i _ (.giveUpTx hready)).moves
  | events i => exact (Move.quiet i _ .giveUpEvent).moves
  | control => exact (Move.control { s.control with slot := none } (.inr ⟨rfl, rfl⟩)).moves

theorem moves_settleProducer (p : Producer) : Moves tbl s (s.settleProducer p) := by
  cases p with
  | rxSlot i => exact moves_settleLine i
  | txSlot i => exact moves_settleLine i
  | events i => exact moves_settleLine i
  | control => exact Move.askCtl.moves

/-- Two changes of one completion queue are one. -/
theorem setCq_setCq (s : State) (c : CqNo) (x y : CplQueue) : (s.setCq c x).setCq c y = s.setCq c y := by
  simp [State.setCq]

/-- The count of an ARMED queue acts on the notification and the timer alone (R144, R146). -/
theorem armedCount_eq (x : CplQueue) :
    x.armedCount = { x with notif := x.armedCount.notif, timer := x.armedCount.timer } := by
  unfold CplQueue.armedCount
  repeat' split
  all_goals rfl

theorem noteWritten_eq (x : CplQueue) :
    x.noteWritten = { x with notif := x.noteWritten.notif, timer := x.noteWritten.timer } := by
  unfold CplQueue.noteWritten
  split
  · exact armedCount_eq x
  · rfl

/-- An entry written, with what its queue then admits (R135, R140). -/
theorem moves_entryWritten {c : CqNo} (h : (s.cq c).write = .headWord) : Moves tbl s (s.entryWritten c) := by
  refine Moves.trans ?_ (moves_beginEntry c)
  have hwait : (s.cq c).entryWritten.noteWritten.waiting = (s.cq c).waiting ∧
      (s.cq c).entryWritten.noteWritten.staging = (s.cq c).staging.tail := by
    rw [noteWritten_eq]
    exact ⟨rfl, rfl⟩
  have hwith : ∀ ws more, ({ (s.cq c).entryWritten.noteWritten with
      waiting := ws, staging := (s.cq c).entryWritten.noteWritten.staging ++ more } : CplQueue) =
      (s.cq c).writtenWith ws more := fun ws more => by rw [hwait.2]; rfl
  have hnone : ∀ ws, ({ (s.cq c).entryWritten.noteWritten with waiting := ws } : CplQueue) =
      (s.cq c).writtenWith ws [] := fun ws => by simp [← hwith]
  unfold State.admitWaiter
  simp only [State.cq_setCq_self, hwait.1]
  split
  next p rest hw =>
    have hsuf : rest <:+ (s.cq c).waiting := hw ▸ List.suffix_cons p rest
    split
    next r hr =>
      rw [State.admitRecord, setCq_setCq, State.cq_setCq_self, setCq_setCq]
      dsimp only
      rw [hwith]
      have hready : (s.setCq c ((s.cq c).writtenWith rest [{ producer := p, record := r }])).readyRecord p = some r := by
        cases p <;> exact hr
      exact ((Move.written c rest _ h hsuf (by simp)).moves.trans (moves_giveUp hready)).trans (moves_settleProducer p)
    next hr =>
      rw [setCq_setCq, hnone]
      exact (Move.written c rest [] h hsuf (by simp)).moves
  next hw =>
    have := (Move.written (tbl := tbl) (s := s) c (s.cq c).waiting [] h (List.suffix_refl _) (by simp)).moves
    rwa [← hnone, ← hwait.1] at this

/-! ### The control requests -/

/-- The fetch of CTLQ ends and the Control Unit is IDLE. -/
theorem moves_endCtlFetch : Moves tbl s s.endCtlFetch :=
  (((Move.dropResult (.fetch 0)).moves).then (.queueFlags 0 _ false (by simp))).then (.control _ (.inl rfl))

/-- Before a request is carried out the Control Unit is IDLE and fetches nothing. -/
def AwaitsNothing (a : State) : Prop := a.control.st = .idle ∧ (a.rq 0).fetch = false

theorem acceptControl_awaitsNothing (s : State) : AwaitsNothing s.acceptControl := by
  refine ⟨by simp, ?_⟩
  rw [acceptControl_eq]
  exact congrArg ReqQueue.fetch (State.rq_setRq_self s 0 _)

theorem moves_takeControl {code : Nat → Bool} {f : List Byte → State → State}
    (hf : ∀ r a, code (reqCode r).toNat = true → AwaitsNothing a → Moves tbl a (f r a)) :
    Moves tbl s (s.takeControl code f) := by
  unfold State.takeControl
  split
  next r hd =>
    split
    next hc =>
      have hne : (s.endCtlFetch.rq 0).isEmpty = false := by
        unfold State.ctlDelivery at hd
        split at hd
        · split at hd
          next h =>
            rw [show s.endCtlFetch.rq 0 = { s.rq 0 with fetch := false } from State.rq_setRq_self _ _ _]
            exact h.2
          · cases hd
        · cases hd
      exact ((moves_endCtlFetch.then (.advanceHead 0 hne)).trans (hf r _ hc (acceptControl_awaitsNothing s))).then .askCtl
    · exact .refl _
  · exact .refl _

variable {a : State} {r : List Byte}

theorem moves_withLine (allowed : LineState → Bool) {f : LineNo → State}
    (hf : ∀ i, (a.line i).long = .noRequest → allowed (a.line i).state = true → Moves tbl a (f i)) :
    Moves tbl a (withLine r a allowed f) := by
  unfold withLine
  repeat' split
  any_goals exact moves_answer _ _
  next i _ hl hs => exact hf i (by simpa using hl) hs

theorem moves_openLine : Moves tbl a (requestOpenLine r a) := by
  refine moves_withLine _ fun i _ hs => ?_
  split
  · exact moves_answer _ _
  next hp => exact (moves_answer r .ok).trans (moves_onLine (.openLine r rfl (by simpa using hs) hp))

theorem moves_modifyLine : Moves tbl a (requestModifyLine r a) := by
  refine moves_withLine _ fun i _ hs => ?_
  split
  · exact moves_answer _ _
  · exact (moves_answer r .ok).trans (moves_onLine (.modify r hs))

theorem moves_setDelimiters : Moves tbl a (requestSetDelimiters r a) := by
  refine moves_withLine _ fun i _ hs => ?_
  split
  · exact moves_answer _ _
  next hp => exact (moves_answer r .ok).trans (moves_onLine (.setDelims r hs hp))

theorem moves_rediscover : Moves tbl a (requestRediscover r a) := by
  refine moves_withLine _ fun i _ hs => ?_
  split
  · exact moves_answer _ _
  next hp => exact (moves_answer r .ok).trans (moves_onLine (.rediscover rfl (by simpa using hs) hp))

theorem moves_flushTx : Moves tbl a (requestFlushTx r a) :=
  moves_withLine _ fun _ _ hs => moves_onLine (.takeFlush _ _ hs)

theorem moves_flushRx : Moves tbl a (requestFlushRx r a) :=
  moves_withLine _ fun _ _ hs => (moves_answer r .ok).trans (moves_onLine (.flushRx (by simpa using hs)))

theorem inSession_of_not_closing {x : LineState} (h : ¬ (x = .closing ∨ x = .closed)) : inSession x = true := by
  cases x <;> simp_all [inSession]

theorem moves_closeLine : Moves tbl a (requestCloseLine r a) := by
  unfold requestCloseLine
  split
  · exact moves_answer _ _
  next i _ =>
    split
    · exact moves_answer _ _
    next m _ =>
      dsimp only
      split
      case h_1 g hl =>
        split
        · exact moves_onLine (.overtake g _ hl)
        · exact moves_answer _ _
      case h_2 => exact moves_answer _ _
      case h_3 => exact moves_answer _ _
      case h_4 => split <;> exact moves_answer _ _
      case h_5 =>
        split
        · exact moves_answer _ _
        next hs => exact moves_onLine (.takeClose m _ _ _ (inSession_of_not_closing hs))

theorem moves_setRateTable (h : AwaitsNothing a) : Moves tbl a (requestSetRateTable r a) := by
  unfold requestSetRateTable
  split
  · exact moves_answer _ _
  next hp =>
    simp only [firstFailure, rateTableChecks, Option.map_eq_none_iff, List.find?_eq_none, List.mem_cons, List.not_mem_nil,
      or_false, forall_eq_or_imp, forall_eq, Bool.not_eq_true', Bool.not_eq_false'] at hp
    obtain ⟨hn, _, hd, _⟩ := hp
    have hlines : ∀ i, (a.line i).discovering = false := fun i => by
      have := (Vector.any_eq_false.1 (by simpa using hd)) i.val i.isLt
      simpa [State.line] using this
    have hn' := of_decide_eq_true (by simpa using hn : decide (1 ≤ (recByte r 4).toNat ∧ (recByte r 4).toNat ≤ 12) = true)
    exact (Move.hold r h.2 fun _ => ⟨hlines, hn'⟩).moves.then (.request _ (by simp))

theorem moves_queryLine (hc : (reqCode r).toNat = 9) (h : AwaitsNothing a) : Moves tbl a (requestQueryLine r a) := by
  unfold requestQueryLine
  split
  · exact moves_answer _ _
  next i _ =>
    split
    · exact moves_answer _ _
    · dsimp only
      have hclear : Moves tbl a (if recBit r 4 0 then a.updLine i fun l => { l with counters := Counters.reset } else a) ∧
          ((if recBit r 4 0 then a.updLine i fun l => { l with counters := Counters.reset } else a).rq 0).fetch = false := by
        split
        · exact ⟨moves_updLine .clearCounters, h.2⟩
        · exact ⟨.refl _, h.2⟩
      exact (hclear.1.then (.hold r hclear.2 (by simp [hc]))).then (.request _ (by simp))

theorem moves_restartQueue : Moves tbl a (requestRestartQueue r a) := by
  unfold requestRestartQueue
  dsimp only
  split
  · exact moves_answer _ _
  · split
    · refine ((moves_answer r .ok).then (.queueFlags (Fin.ofNat 17 (recByte r 4).toNat) false
        (a.rq (Fin.ofNat 17 (recByte r 4).toNat)).fetch id)).trans ?_
      unfold State.askRestarted
      split
      · exact .refl _
      · exact moves_askFetches _
      · exact moves_askFetches _
    · exact moves_answer _ _

theorem moves_carryOut (h : AwaitsNothing a) : Moves tbl a (carryOut r a) := by
  unfold carryOut
  split
  case h_1 => exact moves_answer _ _
  case h_2 => exact moves_setRateTable h
  case h_3 => exact moves_openLine
  case h_4 => exact moves_modifyLine
  case h_5 => exact moves_setDelimiters
  case h_6 => exact moves_rediscover
  case h_7 => exact moves_flushTx
  case h_8 => exact moves_flushRx
  case h_9 => exact moves_closeLine
  case h_10 hc => exact moves_queryLine hc h
  case h_11 => exact moves_restartQueue
  case h_12 => exact moves_answer _ _

/-! ### The register window, the Memory Engine and the fetches -/

/-- A taking outside reset, or nothing. -/
theorem moves_of_take {f : State → State} (hf : Moves tbl s (f s)) (h : s.take f = .next t) : Moves tbl s t := by
  unfold State.take at h
  cases h
  split
  · exact .refl s
  · exact hf

theorem moves_startLoading : Moves true s s.startLoading := by
  have henter := (Move.enterLoading (s := s) rfl).moves
  unfold State.startLoading
  dsimp only
  split
  · exact (henter.then .failLoading).trans
      (moves_registers ⟨rfl, rfl, rfl, rfl, rfl, rfl, rfl, rfl, rfl⟩ ⟨rfl, rfl, rfl⟩)
  · unfold State.requestSetup
    dsimp only
    split
    · exact henter.then (.request _ (by simp))
    · exact henter.then (.readSetup _ rfl rfl)

theorem moves_enterStopping : Moves tbl s s.enterStopping := Move.stopLines.moves.trans (moves_foldl_settleLine _)

theorem moves_abandonLoading : Moves tbl s s.abandonLoading := by
  unfold State.abandonLoading
  split
  · exact Move.discardAll.moves.trans
      (moves_registers ⟨rfl, rfl, rfl, rfl, rfl, rfl, rfl, rfl, rfl⟩ ⟨rfl, rfl, rfl⟩)
  · exact Move.failLoading.moves

theorem moves_setupFailure (c : Cause) (addr : Word) : Moves tbl s (s.setupFailure c addr) :=
  Move.failLoading.moves.trans (moves_registers ⟨rfl, rfl, rfl, rfl, rfl, rfl, rfl, rfl, rfl⟩ ⟨rfl, rfl, rfl⟩)

theorem moves_retireWith (b : BitVec 4) (head : Half) (f : CplQueue → CplQueue) (hf : f = id ∨ f = CplQueue.arm) :
    Moves tbl s (s.retireWith b head f) := by
  unfold State.retireWith
  split
  next h => exact (Move.retireHead _ b head f rfl h hf).moves.trans (moves_beginEntry _)
  · exact moves_registers ⟨rfl, rfl, rfl, rfl, rfl, rfl, rfl, rfl, rfl⟩ ⟨rfl, rfl, rfl⟩

/-- Everything `State.endAccess` can do (R173, R177, R191): the Engine is free, the result is reported or not, and memory
holds the bytes written or what of them has landed. -/
theorem endAccess_eq (s : State) (a : Access) (data : Option (List Byte)) : ∃ m n,
    s.endAccess a data = State.afterAccess { s with
      mem := m, freeNext := n
      engine := { s.engine with
        access := none
        results := if a.deliver = true ∧ s.softPending = false
          then s.engine.results ++ [{ requester := a.request.requester, addr := a.request.addr, data := data }]
          else s.engine.results } } ∧
    (∀ k, a.request.transfer = .read k → m = s.mem ∧ n = s.freeNext) ∧
    ∀ ws, a.request.transfer = .write ws →
      (data ≠ none → m = memWriteBytes s.mem a.request.addr.toNat ws ∧ n = s.freeNext) ∧
      (data = none → m = memLandBytes s.mem a.request.addr.toNat ws s.freeNext ∧ n = s.freeNext + ws.length) := by
  unfold State.endAccess
  cases data <;> cases ht : a.request.transfer <;> simp only [State.commitWrite, State.landWrite, ht]
  case none.read => exact ⟨_, _, rfl, fun _ _ => ⟨rfl, rfl⟩, fun _ h => by cases h⟩
  case none.write bs =>
    refine ⟨_, _, rfl, fun _ h => (by cases h), fun ws h => ?_⟩
    cases h
    exact ⟨fun hn => absurd rfl hn, fun _ => ⟨rfl, rfl⟩⟩
  case some.read => exact ⟨_, _, rfl, fun _ _ => ⟨rfl, rfl⟩, fun _ h => by cases h⟩
  case some.write bs =>
    refine ⟨_, _, rfl, fun _ h => (by cases h), fun ws h => ?_⟩
    cases h
    exact ⟨fun _ => ⟨rfl, rfl⟩, fun hn => (by cases hn)⟩

theorem moves_afterAccess : Moves tbl s s.afterAccess := by
  unfold State.afterAccess
  split
  · exact Move.failLoading.moves
  · split
    · exact Move.enterStopped.moves
    · exact .refl s

theorem moves_endAccess {a : Access} {data : Option (List Byte)} (ha : s.engine.access = some a)
    (hr : ∀ bs k, data = some bs → a.request.transfer = .read k → bs.length = k)
    (hw : ∀ bs ws, data = some bs → a.request.transfer = .write ws → bs = []) : Moves tbl s (s.endAccess a data) := by
  obtain ⟨m, n, he, hread, hwrite⟩ := endAccess_eq s a data
  have hm : memWf s.mem = true → memWf m = true := by
    intro hs
    cases ht : a.request.transfer with
    | read k => rwa [(hread k ht).1]
    | write ws =>
      by_cases hd : data = none
      · rw [((hwrite ws ht).2 hd).1]; exact memWf_memLandBytes ws _ _ _ hs
      · rw [((hwrite ws ht).1 hd).1]; exact memWf_memWriteBytes ws _ _ hs
  rw [he]
  refine (Move.moves (.accessEnds a data m n _ ha hr hw hm ?_)).trans moves_afterAccess
  by_cases hd : a.deliver = true ∧ s.softPending = false
  · exact .inr ⟨hd.1, if_pos hd⟩
  · exact .inl (if_neg hd)

/-- A normal response of the whole transfer: the bytes asked for, or none for a write. -/
theorem moves_reply {a : Access} {data bs : List Byte} (ha : s.engine.access = some a)
    (hr : a.request.transfer.reply data = some bs) : Moves tbl s (s.endAccess a (some bs)) := by
  cases ht : a.request.transfer with
  | read n =>
    rw [ht, Transfer.reply] at hr
    split at hr
    next hn =>
      cases hr
      refine moves_endAccess ha (fun bs k h hk => ?_) (fun bs ws _ hk => ?_)
      · cases h; rw [ht] at hk; cases hk; exact hn
      · rw [ht] at hk; cases hk
    · cases hr
  | write ws =>
    rw [ht, Transfer.reply] at hr
    cases hr
    refine moves_endAccess ha (fun bs k _ hk => ?_) (fun bs ws h _ => ?_)
    · rw [ht] at hk; cases hk
    · cases h; rfl

theorem fetchResult_fetch {q : RqNo} {x : Result} (h : s.fetchResult? q = some x) : (s.rq q).fetch = true := by
  unfold State.fetchResult? at h
  split at h
  · assumption
  · cases h

theorem moves_haltQueue (q : RqNo) (i : LineNo) : Moves tbl s (s.haltQueue q i) :=
  (Move.queueFlags q true false (by simp)).moves.trans (moves_onLine (.event _))

/-- A delivered receive post record (R54, R55). -/
theorem moves_deliverRx {i : LineNo} {r : List Byte} (hf : (s.rq (rpq i)).fetch = true) :
    Moves tbl s ((s.endFetch (rpq i)).deliverRx i r) := by
  have hend : Moves tbl s (s.endFetch (rpq i)) := (Move.queueFlags (rpq i) _ false (by simp)).moves
  have hrq : (s.endFetch (rpq i)).rq (rpq i) = { s.rq (rpq i) with fetch := false } := State.rq_setRq_self _ _ _
  unfold State.deliverRx
  split
  · exact hend.trans (moves_settleLine i)
  next he =>
    split
    next ha =>
      have hne : (s.rq (rpq i)).isEmpty = false := by simpa [hrq, ReqQueue.isEmpty] using he
      refine (Move.deliverRx i r hf hne ha ?_).moves
      have hline : ((s.endFetch (rpq i)).advanceHead (rpq i)).line i = s.line i := by rw [advanceHead_eq]; rfl
      have := onLine_takes ((s.endFetch (rpq i)).advanceHead (rpq i)) i fun l =>
        { l with rx := { l.rx with bufs := l.rx.bufs ++ [checkRxBuf s.windows (rxBufOf r)] } }
      rw [hline] at this
      exact this
    · exact hend.trans (moves_settleLine i)

theorem flushing_not_closed {l : Line} (h : l.flushing = true) : l.state ≠ .closed := by
  intro hc
  simp [Line.flushing, hc] at h

/-- A delivered transmit record (R79, R80, R93). -/
theorem moves_deliverTx {i : LineNo} {r : List Byte} (hf : (s.rq (txq i)).fetch = true) :
    Moves tbl s ((s.endFetch (txq i)).deliverTx i r) := by
  have hend : Moves tbl s (s.endFetch (txq i)) := (Move.queueFlags (txq i) _ false (by simp)).moves
  have hrq : (s.endFetch (txq i)).rq (txq i) = { s.rq (txq i) with fetch := false } := State.rq_setRq_self _ _ _
  have htakes : ∀ f : Line → Line, LineTakes i ((s.endFetch (txq i)).advanceHead (txq i))
      (((s.endFetch (txq i)).advanceHead (txq i)).onLine i f) (f (s.line i)) := fun f => by
    have hline : ((s.endFetch (txq i)).advanceHead (txq i)).line i = s.line i := by rw [advanceHead_eq]; rfl
    have := onLine_takes ((s.endFetch (txq i)).advanceHead (txq i)) i f
    rwa [hline] at this
  unfold State.deliverTx
  dsimp only
  split
  · exact hend.trans (moves_settleLine i)
  next he =>
    have hne : (s.rq (txq i)).isEmpty = false := by simpa [hrq, ReqQueue.isEmpty] using he
    split
    next hfl =>
      refine (Move.answerTx i (txRecordOf r).tag .flushed hf hne (flushing_not_closed hfl) ?_).moves
      exact htakes fun l => l.answerTx i s.time (txRecordOf r).tag .flushed
    · split
      next hw =>
        rw [hrq] at hw
        refine (Move.acceptTx i (txRecordOf r) hf hne hw ?_).moves
        exact htakes fun l => l.acceptTx i s.time s.windows (txRecordOf r)
      · exact hend.trans (moves_settleLine i)

/-! ### The commands -/

/-- FETCH_ENDS of the control queue (R111, R159). -/
theorem moves_fetchEnds_ctl {x : Result} : Moves tbl s
    (match x.data with
      | none => s.enterFaulted .controlFetch x.addr
      | some _ =>
        match s.ctlDelivery with
        | some r => s.takeRequest r carryOut
        | none => s.endCtlFetch.askCtl) := by
  split
  · exact (Move.enterFaulted _ _).moves
  · split
    next r hr =>
      have := moves_takeControl (tbl := tbl) (s := s) (code := fun _ => true) (f := carryOut) fun r a _ h => moves_carryOut h
      simpa only [State.takeControl, hr, if_true] using this
    · exact moves_endCtlFetch.then .askCtl

theorem moves_fetchEnds {q : RqNo} (h : execFetchEnds q s = .next t) : Moves tbl s t := by
  refine moves_of_take ?_ h
  split
  · exact .refl s
  next x hx =>
    have hf := fetchResult_fetch hx
    have hdrop : Moves tbl s (s.dropResult (.fetch q)) := (Move.dropResult (.fetch q)).moves
    have hk : (∀ i, rqKind q = .tx i → q = txq i) ∧ ∀ i, rqKind q = .rp i → q = rpq i := by
      clear hx hf hdrop h
      revert q; decide
    split
    · exact moves_fetchEnds_ctl
    next i hi =>
      obtain rfl := hk.1 i hi
      split
      · exact hdrop.trans (moves_haltQueue _ _)
      · exact hdrop.trans (moves_deliverTx hf)
    next i hi =>
      obtain rfl := hk.2 i hi
      split
      · exact hdrop.trans (moves_haltQueue _ _)
      · exact hdrop.trans (moves_deliverRx hf)

theorem moves_characterCompletes {i : LineNo} {bits : List Bool} (h : execCharacterCompletes i bits s = .next t) :
    Moves tbl s t := by
  refine moves_of_take ?_ h
  dsimp only
  split
  · split
    next hs =>
      split
      · exact (moves_setRxd i _).trans (moves_onLine (.openChar _ hs))
      · exact .refl s
    next hs =>
      split
      · exact (moves_setRxd i _).trans (moves_onLine (.trialChar _ hs))
      · exact .refl s
    · exact .refl s
  · exact .refl s

theorem moves_breakBegins {i : LineNo} (h : execBreakBegins i s = .next t) : Moves tbl s t := by
  refine moves_of_take ?_ h
  dsimp only
  split
  · split
    next hs => exact (moves_setRxd i _).trans (moves_onLine (.openBreak hs))
    next hs => exact (moves_setRxd i _).trans (moves_onLine (.failAttempt hs))
    · exact .refl s
  · exact .refl s

theorem moves_fallingEdge {i : LineNo} (h : execFallingEdge i s = .next t) : Moves tbl s t := by
  refine moves_of_take ((moves_setRxd i .space).trans ?_) h
  unfold State.updLine
  dsimp only
  split
  next hs => exact (Move.quiet i _ (.measure hs)).moves
  · split
    · exact (Move.quiet i _ (.assembler .frame)).moves
    · rw [setLine_self]; exact .refl _

theorem moves_lowInterval {i : LineNo} {n : Nat} (h : execLowInterval i n s = .next t) : Moves tbl s t := by
  refine moves_of_take ?_ h
  dsimp only
  split
  next hs =>
    split
    · exact (moves_setRxd i _).trans (moves_onLine (.takeInterval n hs))
    · exact moves_setRxd i _
  · exact .refl s

theorem moves_offer {p : Producer} (h : execOffer p s = .next t) : Moves tbl s t := by
  refine moves_of_take ?_ h
  dsimp only
  split
  next r hr =>
    split
    next hmay =>
      split
      next hroom =>
        have hready : ∀ x, (s.setCq r.dest x).readyRecord p = some r := fun x => by cases p <;> exact hr
        exact (((Move.stage r.dest { producer := p, record := r } hroom.1).moves.trans
          (moves_giveUp (hready _))).trans (moves_beginEntry _)).trans (moves_settleProducer p)
      · exact (Move.wait r.dest p (by simpa using hmay.2)).moves
    · exact .refl s
  · exact .refl s

theorem moves_chunkWriteEnds {i : LineNo} (h : execChunkWriteEnds i s = .next t) : Moves tbl s t := by
  refine moves_of_take ?_ h
  split
  next n x hn _ => exact (Move.dropResult _).moves.trans (moves_onLine (.takeChunk n _ hn))
  · exact .refl s

theorem moves_dataReadEnds {i : LineNo} (h : execDataReadEnds i s = .next t) : Moves tbl s t := by
  refine moves_of_take ?_ h
  split
  next n x hn hx =>
    refine (Move.dataRead i n x hn hx ?_).moves
    exact onLine_takes (s.dropResult (.dataRead i)) i fun l => l.takeRead i s.time x.data
  · exact .refl s

theorem moves_setupRecordReadEnds (h : execSetupRecordReadEnds s = .next t) : Moves tbl s t := by
  refine moves_of_take ?_ h
  split
  next x hp _ =>
    split
    · exact moves_setupFailure _ _
    · split
      · exact moves_setupFailure _ _
      next hv => exact ((Move.dropResult _).moves.then (.install _ hp hv)).then (.request _ (by simp))
  · exact .refl s

theorem moves_zeroProgressWriteEnds (h : execZeroProgressWriteEnds s = .next t) : Moves tbl s t := by
  refine moves_of_take ?_ h
  dsimp only
  split
  · split
    · exact (Move.enterFaulted _ _).moves
    · exact (Move.dropResult _).moves.then (.part .running (by simp))
  · exact .refl s

theorem moves_progressWriteEnds (h : execProgressWriteEnds s = .next t) : Moves tbl s t := by
  refine moves_of_take ?_ h
  dsimp only
  split
  · split
    · exact (Move.dropResult _).moves.trans
        (moves_registers ⟨rfl, rfl, rfl, rfl, rfl, rfl, rfl, rfl, rfl⟩ ⟨rfl, rfl, rfl⟩)
    · exact (Move.enterFaulted _ _).moves
  · exact .refl s

theorem moves_bodyAccessEnds {c : CqNo} (h : execBodyAccessEnds c s = .next t) : Moves tbl s t := by
  refine moves_of_take ?_ h
  split
  next hw _ =>
    split
    · exact (Move.dropResult _).moves.trans (moves_requestHeadWord hw)
    · exact (Move.enterFaulted _ _).moves
  · exact .refl s

theorem moves_headWordEnds {c : CqNo} (h : execHeadWordEnds c s = .next t) : Moves tbl s t := by
  refine moves_of_take ?_ h
  split
  next hw _ =>
    split
    · exact (Move.dropResult _).moves.trans (moves_entryWritten hw)
    · exact (Move.enterFaulted _ _).moves
  · exact .refl s

theorem heldResult_holding {code : Nat} {w : Requester} {r : List Byte} {x : Result}
    (h : s.heldResult? code w = some (r, x)) :
    s.control.st = .holding ∧ s.control.req = some r ∧ (reqCode r).toNat = code ∧ s.result? w = some x := by
  unfold State.heldResult? at h
  split at h
  next hst hreq hres =>
    split at h
    next hc => cases h; exact ⟨hst, hreq, hc, hres⟩
    · cases h
  · cases h

theorem moves_tableReadEnds (h : execTableReadEnds s = .next t) : Moves true s t := by
  refine moves_of_take ?_ h
  dsimp only
  split
  next r x hx =>
    obtain ⟨hst, hreq, hc, _⟩ := heldResult_holding hx
    refine (Move.dropResult .tableRead).moves.trans ?_
    split
    next bs _ =>
      refine Moves.trans ?_ (moves_answer _ _)
      split
      next hok => exact (Move.rateTable (s := s.dropResult .tableRead) r bs rfl hst hreq hc hok).moves
      · exact .refl _
    · exact moves_answer _ _
  · exact .refl s

theorem moves_accessGrant (h : execAccessGrant s = .next t) : Moves tbl s t := by
  refine moves_of_take ?_ h
  split
  next hg =>
    have ha : s.engine.access = none := by simp_all [State.mayGrant]
    split
    next r e hp => exact (Move.grant r e ha hp).moves
    · exact .refl s
  · exact .refl s

theorem moves_busResponse {reply : BusReply} (h : execBusResponse reply s = .next t) : Moves tbl s t := by
  refine moves_of_take ?_ h
  split
  next a ha =>
    split
    · exact .refl s
    · exact moves_endAccess ha (by simp) (by simp)
    · split
      next hr => exact moves_reply ha hr
      · exact .refl s
  · exact .refl s

theorem moves_accessTimeout (h : execAccessTimeout s = .next t) : Moves tbl s t := by
  refine moves_of_take ?_ h
  split
  next a ha => exact moves_endAccess ha (by simp) (by simp)
  · exact .refl s

theorem moves_runWritten0 (h : execRunWritten0 s = .next t) : Moves tbl s t := by
  refine moves_of_take ?_ h
  have hrun : Moves tbl s { s with run := false } :=
    moves_registers ⟨rfl, rfl, rfl, rfl, rfl, rfl, rfl, rfl, rfl⟩ ⟨rfl, rfl, rfl⟩
  dsimp only
  split
  · exact hrun.trans moves_enterStopping
  · exact hrun.trans moves_abandonLoading
  · exact hrun.then (.part .stopped (by simp))
  · exact hrun

theorem moves_runWritten1 (h : execRunWritten1 s = .next t) : Moves true s t := by
  refine moves_of_take ?_ h
  have hrun : Moves true s { s with run := true } :=
    moves_registers ⟨rfl, rfl, rfl, rfl, rfl, rfl, rfl, rfl, rfl⟩ ⟨rfl, rfl, rfl⟩
  dsimp only
  split
  · exact hrun.trans moves_startLoading
  · exact hrun

theorem moves_post {b : BitVec 5} {tail : Half} (h : execPost b tail s = .next t) : Moves tbl s t := by
  refine moves_of_take ?_ h
  split
  next hp =>
    simp only [State.postPasses, Bool.and_eq_true, decide_eq_true_eq] at hp
    obtain ⟨⟨hpart, _⟩, htail⟩ := hp
    cases hsize : (s.rq (Fin.ofNat 17 b.toNat)).size with
    | none => rw [hsize] at htail; simp at htail
    | some n =>
      rw [hsize] at htail
      exact (Move.tail _ n tail.toNat hpart hsize htail).moves.trans (moves_askConsumer _)
  · exact moves_registers ⟨rfl, rfl, rfl, rfl, rfl, rfl, rfl, rfl, rfl⟩ ⟨rfl, rfl, rfl⟩

theorem moves_stopLimitExpiry (h : execStopLimitExpiry s = .next t) : Moves tbl s t := by
  refine moves_of_take ?_ h
  dsimp only
  split
  · split
    · exact Move.expireStopLimit.moves.trans
        (moves_registers ⟨rfl, rfl, rfl, rfl, rfl, rfl, rfl, rfl, rfl⟩ ⟨rfl, rfl, rfl⟩)
    · exact Move.expireStopLimit.moves.then .enterStopped
  · exact .refl s

theorem ResetValues.resetBlocks (s : State) : ResetValues s s.resetBlocks := ⟨rfl, id⟩

theorem resetValues_pinReset (s : State) : ResetValues s { s.abandonAccess.resetBlocks with resetHeld := true } := by
  refine ⟨?_, ?_⟩
  · obtain ⟨m, n, he, _⟩ := abandonAccess_eq s
    rw [he]; rfl
  · intro h
    show memWf s.abandonAccess.mem = true
    simp only [State.abandonAccess, State.landWrite]
    repeat' split
    · exact memWf_memLandBytes _ _ _ _ h
    · exact h
    · exact h

/-- The commands whose effect is one of the two resets. -/
def Instr.resets : Instr → Bool
  | .pinReset | .pinResetRelease | .softReset _ | .softResetTakesEffect => true
  | _ => false

theorem resets_or_stays {c : Instr} (hc : Instr.resets c = true) (h : exec c s = .next t) :
    t = s ∨ ResetValues s t ∨ t = { s with softPending := true } := by
  cases c <;> cases hc
  case pinReset =>
    simp only [exec, execPinReset, State.take] at h
    cases h
    split
    · exact .inl rfl
    · exact .inr (.inl (resetValues_pinReset s))
  case pinResetRelease =>
    simp only [exec, execPinResetRelease] at h
    cases h
    split
    · exact .inr (.inl (.resetBlocks s))
    · exact .inl rfl
  case softReset =>
    simp only [exec, execSoftReset, State.take] at h
    cases h
    split
    · exact .inl rfl
    · split
      · exact .inl rfl
      · split
        · exact .inr (.inl ⟨rfl, id⟩)
        · exact .inr (.inr rfl)
  case softResetTakesEffect =>
    simp only [exec, execSoftResetTakesEffect, State.take] at h
    cases h
    split
    · exact .inl rfl
    · split
      · exact .inr (.inl ⟨rfl, id⟩)
      · exact .inl rfl

theorem moves_retire {b : BitVec 4} {v : Half} (h : execRetire b v s = .next t) : Moves tbl s t :=
  moves_of_take (moves_retireWith b v id (.inl rfl)) h

theorem moves_retireArm {b : BitVec 4} {v : Half} (h : execRetireArm b v s = .next t) : Moves tbl s t :=
  moves_of_take (moves_retireWith b v CplQueue.arm (.inr rfl)) h

theorem moves_registerWriteIgnored {o : Nat} {n : Bool} {w : Word}
    (h : execRegisterWriteIgnored o n w s = .next t) : Moves tbl s t :=
  moves_of_take (.refl s) h

theorem moves_breakEnds {i : LineNo} (h : execBreakEnds i s = .next t) : Moves tbl s t := by
  refine moves_of_take ?_ h
  dsimp only
  split
  next hs => exact (moves_setRxd i .mark).trans (moves_updLine (f := fun l =>
      Line.gapRestart { l with rx := { l.rx with asm := .hunt } }) (.breakEnds hs.2))
  · exact .refl s

theorem moves_gapTimerExpiry {i : LineNo} (h : execGapTimerExpiry i s = .next t) : Moves tbl s t := by
  refine moves_of_take ?_ h
  dsimp only
  split
  next hs => exact moves_onLine (.gapExpire hs.1)
  · exact .refl s

theorem moves_discoveryTimeoutExpiry {i : LineNo} (h : execDiscoveryTimeoutExpiry i s = .next t) : Moves tbl s t := by
  refine moves_of_take ?_ h
  dsimp only
  split
  next hs => exact moves_onLine (.failDiscovery .timeout hs.1)
  · exact .refl s

theorem moves_trialWindowExpiry {i : LineNo} (h : execTrialWindowExpiry i s = .next t) : Moves tbl s t := by
  refine moves_of_take ?_ h
  dsimp only
  split
  next hs => exact moves_onLine (.failAttempt hs.1)
  · exact .refl s

theorem moves_drainLimitExpiry {i : LineNo} (h : execDrainLimitExpiry i s = .next t) : Moves tbl s t := by
  refine moves_of_take ?_ h
  dsimp only
  split
  next hs => exact moves_onLine (.cutDrain hs.1)
  · exact .refl s

theorem moves_pauseLimitExpiry {i : LineNo} (h : execPauseLimitExpiry i s = .next t) : Moves tbl s t := by
  refine moves_of_take ?_ h
  split
  next hs => exact moves_onLine (.pauseExpire hs)
  · exact .refl s

theorem moves_breakTimerExpiry {i : LineNo} (h : execBreakTimerExpiry i s = .next t) : Moves tbl s t := by
  refine moves_of_take ?_ h
  dsimp only
  split
  next hs => exact moves_onLine (f := fun l => l.stopBreak.endRecord i s.time .ok) (.endBreak hs.1)
  · exact .refl s

theorem moves_dataCharacterSent {i : LineNo} (h : execDataCharacterSent i s = .next t) : Moves tbl s t := by
  refine moves_of_take ?_ h
  split
  next bits ho => exact moves_onLine (.dataSent bits ho)
  · exact .refl s

theorem moves_flowCharacterEnds {i : LineNo} (h : execFlowCharacterEnds i s = .next t) : Moves tbl s t := by
  refine moves_of_take ?_ h
  split
  next ch bits ho => exact moves_onLine (.flowSent ch bits ho)
  · exact .refl s

theorem moves_reportWriteEnds (h : execReportWriteEnds s = .next t) : Moves tbl s t := by
  refine moves_of_take ?_ h
  split
  · exact (Move.dropResult _).moves.trans (moves_answer _ _)
  · exact .refl s

theorem moves_takeCharacterEntry {i : LineNo} (h : execTakeCharacterEntry i s = .next t) : Moves tbl s t := by
  refine moves_of_take ?_ h
  dsimp only
  split
  · split
    next hm => exact moves_onLine (f := fun l => l.popFifo.flowFall.takeChar i s.time _ _ _ _) (.takeChar _ _ _ _ hm.1 hm.2)
    · exact .refl s
  · exact .refl s

theorem moves_takeGapMarker {i : LineNo} (h : execTakeGapMarker i s = .next t) : Moves tbl s t := by
  refine moves_of_take ?_ h
  dsimp only
  split
  · split
    next hm => exact moves_onLine (f := fun l => l.popFifo.flowFall.takeGap i s.time _) (.takeMarker true _ hm)
    · exact .refl s
  · exact .refl s

theorem moves_takeBreakMarker {i : LineNo} (h : execTakeBreakMarker i s = .next t) : Moves tbl s t := by
  refine moves_of_take ?_ h
  dsimp only
  split
  · split
    next hm => exact moves_onLine (f := fun l => l.popFifo.flowFall.takeBreak i s.time _) (.takeMarker false _ hm)
    · exact .refl s
  · exact .refl s

theorem moves_answerInvalidRecord {i : LineNo} (h : execAnswerInvalidRecord i s = .next t) : Moves tbl s t := by
  refine moves_of_take ?_ h
  split
  next hm =>
    simp only [Line.mayAnswerInvalid, Bool.and_eq_true, decide_eq_true_eq, Option.isNone_iff_eq_none] at hm
    exact moves_onLine (.answerBuffer hm.1.1.1 hm.1.2)
  · exact .refl s

theorem moves_windUpBufferAnswer {i : LineNo} (h : execWindUpBufferAnswer i s = .next t) : Moves tbl s t := by
  refine moves_of_take ?_ h
  dsimp only
  split
  next hm =>
    have hs : (s.line i).state = .closing := (of_decide_eq_true hm.1).1
    exact moves_onLine (.answerBuffer (by simp [hs]) hm.2.1)
  · exact .refl s

theorem moves_windUpEnd {i : LineNo} (h : execWindUpEnd i s = .next t) : Moves tbl s t := by
  refine moves_of_take ?_ h
  split
  next hd => exact moves_updLine (.finishClose _ hd)
  · exact .refl s

theorem moves_moderationTimerExpiry {c : CqNo} (h : execModerationTimerExpiry c s = .next t) : Moves tbl s t := by
  refine moves_of_take ?_ h
  split
  · exact (Move.moderate c).moves
  · exact .refl s

theorem moves_stoppingEnds (h : execStoppingEnds s = .next t) : Moves tbl s t := by
  refine moves_of_take ?_ h
  split
  · exact Move.enterStopped.moves
  · exact .refl s

theorem moves_falseStart {i : LineNo} (h : execFalseStart i s = .next t) : Moves tbl s t := by
  refine moves_of_take ?_ h
  split
  · exact (moves_setRxd i .mark).trans (moves_updLine (f := fun l => { l with rx := { l.rx with asm := .hunt } })
      (.assembler .hunt))
  · exact .refl s

theorem moves_microsecondCountRises (h : execMicrosecondCountRises s = .next t) : Moves tbl s t :=
  moves_of_take (Move.tick (s := s)).moves h

/-- Everything a command that takes control requests can do. -/
theorem moves_controlCommand {code : Nat → Bool} {f : List Byte → State → State}
    (hf : ∀ r a, code (reqCode r).toNat = true → AwaitsNothing a → Moves tbl a (f r a))
    (h : (s.take fun s => s.takeControl code f) = .next t) : Moves tbl s t :=
  moves_of_take (moves_takeControl hf) h

/-- The commands, other than the resets, that may replace or empty the rate table. -/
def Instr.changesTable : Instr → Bool
  | .tableReadEnds | .runWritten1 => true
  | _ => false

/-- Every command but the resets and a write of SETUP_ADDR is a row of moves. -/
theorem exec_moves {c : Instr} (hc : Instr.resets c = false) (ha : ∀ v, c ≠ .setupAddrWrite v) (h : exec c s = .next t) :
    Moves (Instr.changesTable c) s t := by
  cases c with
  | pinReset => cases hc
  | pinResetRelease => cases hc
  | softReset _ => cases hc
  | softResetTakesEffect => cases hc
  | setupAddrWrite v => exact absurd rfl (ha v)
  | runWritten1 => exact moves_runWritten1 h
  | runWritten0 => exact moves_runWritten0 h
  | statusRead =>
    simp only [exec, execStatusRead] at h
    cases h
    split <;> exact moves_registers ⟨rfl, rfl, rfl, rfl, rfl, rfl, rfl, rfl, rfl⟩ ⟨rfl, rfl, rfl⟩
  | post => exact moves_post h
  | retire => exact moves_retire h
  | retireArm => exact moves_retireArm h
  | registerWriteIgnored o n w => exact moves_registerWriteIgnored (o := o) (n := n) (w := w) h
  | nop => exact moves_controlCommand (fun _ _ _ _ => moves_answer _ _) h
  | unassignedRequestCode => exact moves_controlCommand (fun _ _ _ _ => moves_answer _ _) h
  | setRateTable => exact moves_controlCommand (fun _ _ _ ha => moves_setRateTable ha) h
  | openLine => exact moves_controlCommand (fun _ _ _ _ => moves_openLine) h
  | modifyLine => exact moves_controlCommand (fun _ _ _ _ => moves_modifyLine) h
  | setDelimiters => exact moves_controlCommand (fun _ _ _ _ => moves_setDelimiters) h
  | rediscover => exact moves_controlCommand (fun _ _ _ _ => moves_rediscover) h
  | flushTx => exact moves_controlCommand (fun _ _ _ _ => moves_flushTx) h
  | flushRx => exact moves_controlCommand (fun _ _ _ _ => moves_flushRx) h
  | closeLine => exact moves_controlCommand (fun _ _ _ _ => moves_closeLine) h
  | queryLine => exact moves_controlCommand (fun _ _ hcode ha => moves_queryLine (by simpa using hcode) ha) h
  | restartQueue => exact moves_controlCommand (fun _ _ _ _ => moves_restartQueue) h
  | characterCompletes => exact moves_characterCompletes h
  | breakBegins => exact moves_breakBegins h
  | breakEnds => exact moves_breakEnds h
  | lowInterval => exact moves_lowInterval h
  | gapTimerExpiry => exact moves_gapTimerExpiry h
  | discoveryTimeoutExpiry => exact moves_discoveryTimeoutExpiry h
  | trialWindowExpiry => exact moves_trialWindowExpiry h
  | drainLimitExpiry => exact moves_drainLimitExpiry h
  | pauseLimitExpiry => exact moves_pauseLimitExpiry h
  | breakTimerExpiry => exact moves_breakTimerExpiry h
  | dataCharacterSent => exact moves_dataCharacterSent h
  | flowCharacterEnds => exact moves_flowCharacterEnds h
  | accessGrant => exact moves_accessGrant h
  | busResponse => exact moves_busResponse h
  | accessTimeout => exact moves_accessTimeout h
  | chunkWriteEnds => exact moves_chunkWriteEnds h
  | dataReadEnds => exact moves_dataReadEnds h
  | fetchEnds => exact moves_fetchEnds h
  | tableReadEnds => exact moves_tableReadEnds h
  | reportWriteEnds => exact moves_reportWriteEnds h
  | bodyAccessEnds => exact moves_bodyAccessEnds h
  | headWordEnds => exact moves_headWordEnds h
  | progressWriteEnds => exact moves_progressWriteEnds h
  | setupRecordReadEnds => exact moves_setupRecordReadEnds h
  | zeroProgressWriteEnds => exact moves_zeroProgressWriteEnds h
  | takeCharacterEntry => exact moves_takeCharacterEntry h
  | takeGapMarker => exact moves_takeGapMarker h
  | takeBreakMarker => exact moves_takeBreakMarker h
  | answerInvalidRecord => exact moves_answerInvalidRecord h
  | offer => exact moves_offer h
  | windUpBufferAnswer => exact moves_windUpBufferAnswer h
  | windUpEnd => exact moves_windUpEnd h
  | moderationTimerExpiry => exact moves_moderationTimerExpiry h
  | stopLimitExpiry => exact moves_stopLimitExpiry h
  | stoppingEnds => exact moves_stoppingEnds h
  | fallingEdge => exact moves_fallingEdge h
  | falseStart => exact moves_falseStart h
  | microsecondCountRises => exact moves_microsecondCountRises h

/-- What every move keeps, and the resets, every step keeps. -/
theorem keptByEveryStep_of_moves {P : State → Prop} (hcore : ∀ s t, SameCore s t → P s → P t)
    (hreset : ∀ s t, ResetValues s t → P s → P t) (hmove : ∀ {tbl : Bool} s t, Move tbl s t → P s → P t) :
    KeptByEveryStep P := by
  intro s t hs h
  unfold step at h
  split at h
  next c rest _ =>
    have hs' : P { s with pending := rest } :=
      hcore s { s with pending := rest } ⟨rfl, rfl, rfl, rfl, rfl, rfl, rfl, rfl, rfl⟩ hs
    generalize ({ s with pending := rest } : State) = u at h hs'
    cases hc : Instr.resets c with
    | true =>
      rcases resets_or_stays hc h with rfl | hr | rfl
      · exact hs'
      · exact hreset _ _ hr hs'
      · exact hcore u { u with softPending := true } ⟨rfl, rfl, rfl, rfl, rfl, rfl, rfl, rfl, rfl⟩ hs'
    | false =>
      by_cases ha : ∃ v, c = .setupAddrWrite v
      · obtain ⟨v, rfl⟩ := ha
        simp only [exec, execSetupAddrWrite, State.take] at h
        cases h
        refine hcore _ _ ?_ hs'
        repeat' split
        all_goals exact ⟨rfl, rfl, rfl, rfl, rfl, rfl, rfl, rfl, rfl⟩
      · exact (exec_moves hc (fun v hv => ha ⟨v, hv⟩) h).keep hmove hs'
  · cases h; exact hs

end Sys2Proof.Machine
end

section
/-! PROOF. What every step keeps that needs no invariant: the waiting commands, the pin's hold, SETUP_ADDR and the form of
host memory; the timers; and the state after reset. -/

namespace Sys2Proof.Machine

variable {tbl : Bool} {s t : State}

/-! ### What every move leaves alone -/

theorem LineTakes.frame {i : LineNo} {l : Line} (h : LineTakes i s t l) :
    t = { s with lines := t.lines, reqQueues := t.reqQueues, engine := t.engine, rxd := t.rxd } := h.1.1

/-- Everything the entry to LOADING can do (R180): memory holds what an abandoned write left there. -/
theorem enterLoading_eq (s : State) : ∃ m n, s.enterLoading =
    { s with
      part := .loading, cause := .noCause, discarded := false, faultAddr := 0, notifyFault := false
      stopLimit := none, stopExpired := false, loadAbandoned := false, windows := unusedWindows, rateTable := []
      lines := freshLines, reqQueues := Vector.replicate 17 ReqQueue.reset
      cplQueues := Vector.replicate 4 CplQueue.reset, progressAddr := 0, progressWaits := false
      progressActive := false, engine := Engine.reset, control := ControlUnit.reset, mem := m, freeNext := n } ∧
    AbandonsAccess s { s with mem := m, freeNext := n, engine := Engine.reset } := by
  obtain ⟨m, n, he, hab⟩ := abandonAccess_eq s
  exact ⟨m, n, by rw [State.enterLoading, he]; rfl, hab⟩

theorem beginAccess_keepsSetup (s : State) (r : Request) : KeepsSetup s (s.beginAccess r) := by
  unfold State.beginAccess
  split <;> exact ⟨rfl, rfl, rfl⟩

theorem KeepsSetup.of_takes {i : LineNo} {l : Line} (h : LineTakes i s t l) : KeepsSetup s t := by
  rw [h.frame]; exact ⟨rfl, rfl, rfl⟩

theorem advanceHead_keepsSetup (s : State) (q : RqNo) : KeepsSetup s (s.advanceHead q) := by
  rw [advanceHead_eq]; exact ⟨rfl, rfl, rfl⟩

theorem KeepsSetup.trans {u : State} (h : KeepsSetup s t) (h' : KeepsSetup t u) : KeepsSetup s u :=
  ⟨h'.pending.trans h.pending, h'.resetHeld.trans h.resetHeld, h'.setupAddr.trans h.setupAddr⟩

/-- No move changes the waiting commands, the pin's hold or SETUP_ADDR. -/
theorem Move.keepsSetup (m : Move tbl s t) : KeepsSetup s t := by
  cases m
  case registers _ hk => exact hk
  case takes h => exact .of_takes h
  case dataRead h => exact (KeepsSetup.mk rfl rfl rfl : KeepsSetup s (s.dropResult _)).trans (.of_takes h)
  case deliverRx h | answerTx h | acceptTx h =>
    exact (KeepsSetup.mk rfl rfl rfl : KeepsSetup s (s.endFetch _)).trans
      ((advanceHead_keepsSetup _ _).trans (.of_takes h))
  case advanceHead => exact advanceHead_keepsSetup _ _
  case askRpq => rw [askRpq_eq]; exact ⟨rfl, rfl, rfl⟩
  case askTxq => rw [askTxq_eq]; exact ⟨rfl, rfl, rfl⟩
  case askCtl => rw [askCtl_eq]; split <;> exact ⟨rfl, rfl, rfl⟩
  case grant e _ _ => exact (KeepsSetup.mk rfl rfl rfl : KeepsSetup s { s with engine := e }).trans (beginAccess_keepsSetup _ _)
  case readSetup => exact beginAccess_keepsSetup _ _
  case enterLoading => obtain ⟨m, n, he, _⟩ := enterLoading_eq s; rw [he]; exact ⟨rfl, rfl, rfl⟩
  all_goals exact ⟨rfl, rfl, rfl⟩

theorem Moves.keepsSetup (h : Moves tbl s t) : KeepsSetup s t :=
  h.keep (P := KeepsSetup s) (fun _ _ m hk => hk.trans m.keepsSetup) ⟨rfl, rfl, rfl⟩


/-! ### The resets, as equations -/

theorem take_of_held {f : State → State} (h : s.resetHeld = true) : s.take f = .next s := by
  simp [State.take, h]

theorem resetBlocks_setupAddr (s : State) : s.resetBlocks.setupAddr = 0 := rfl

theorem softReset_eq (s : State) : s.softReset =
    { State.reset with
      cause := s.cause, faultAddr := s.faultAddr, rxd := s.rxd, mem := s.mem, freeNext := s.freeNext
      readData := s.readData, pending := s.pending } := rfl

/-! ### The statements -/

/-- Settles O1: `step` is a match on the queue of waiting commands. -/
theorem stepTakesFrontCommand : Obligations.StepTakesFrontCommand :=
  fun s => ⟨fun _ _ h => by rw [step, h], fun h => by rw [step, h]⟩

/-- Every command answers a next state. -/
theorem exec_next (c : Instr) (s : State) : ∃ t, exec c s = .next t := by
  cases c <;> exact ⟨_, rfl⟩

/-- A command of the soft reset keeps the waiting commands and the pin's hold. -/
theorem softReset_keeps (h : s.resetHeld = false) :
    s.softReset.pending = s.pending ∧ s.softReset.resetHeld = s.resetHeld := ⟨rfl, h.symm⟩

theorem take_keeps {f : State → State} (hf : s.resetHeld = false →
    (f s).pending = s.pending ∧ (f s).resetHeld = s.resetHeld) (h : s.take f = .next t) :
    t.pending = s.pending ∧ t.resetHeld = s.resetHeld := by
  cases hr : s.resetHeld with
  | true => rw [take_of_held hr] at h; cases h; exact ⟨rfl, hr⟩
  | false => rw [take_of_running hr] at h; cases h; rw [← hr]; exact hf hr

/-- Settles O2: a command is a row of moves, none of which touches the two fields, or one of the resets, or a write of
SETUP_ADDR. -/
theorem everyCommandAnswers : Obligations.EveryCommandAnswers := by
  intro c s
  obtain ⟨t, ht⟩ := exec_next c s
  refine ⟨t, ht, ?_⟩
  cases c
  case pinReset =>
    cases hr : s.resetHeld with
    | true => rw [exec, execPinReset, take_of_held hr] at ht; cases ht; exact ⟨rfl, hr⟩
    | false =>
      rw [exec, execPinReset, take_of_running hr] at ht
      cases ht
      obtain ⟨m, n, he, _⟩ := abandonAccess_eq s
      rw [he]
      exact ⟨rfl, rfl⟩
  case pinResetRelease =>
    cases ht
    cases hr : s.resetHeld with
    | true => exact ⟨rfl, rfl⟩
    | false => exact ⟨rfl, hr⟩
  case softReset run =>
    refine take_keeps (fun hr => ?_) (show execSoftReset run s = .next t from ht)
    split
    · exact ⟨rfl, rfl⟩
    · split
      · exact softReset_keeps hr
      · exact ⟨rfl, rfl⟩
  case softResetTakesEffect =>
    refine take_keeps (fun hr => ?_) (show execSoftResetTakesEffect s = .next t from ht)
    split
    · exact softReset_keeps hr
    · exact ⟨rfl, rfl⟩
  case setupAddrWrite v =>
    refine take_keeps (fun _ => ?_) (show execSetupAddrWrite v s = .next t from ht)
    split <;> exact ⟨rfl, rfl⟩
  all_goals
    have hk := (exec_moves rfl (by simp) ht).keepsSetup
    exact ⟨hk.pending, hk.resetHeld⟩

/-- Settles O3: the taking of PIN_RESET, the guard of every other command, the outputs, and the release. -/
theorem pinResetHoldsThePart : Obligations.PinResetHoldsThePart := by
  refine ⟨fun s hr => ?_, fun c s hr hc hst => ?_, fun s hr => ⟨?_, fun o n => ?_, fun c => ?_⟩, fun s hr => ?_⟩
  · obtain ⟨m, n, he, hab⟩ := abandonAccess_eq s
    refine ⟨_, by rw [exec, execPinReset, take_of_running hr], ?_, ?_⟩
    · rw [he]; rfl
    · rw [he]; exact hab
  · cases c
    case pinResetRelease => exact absurd rfl hc
    case statusRead => exact absurd rfl hst
    all_goals exact congrArg Host.Outcome.next (if_pos hr)
  · simp [exec, execStatusRead, hr]
  · simp [State.windowRead, hr]
  · simp [State.intAsserted, hr]
  · simp [exec, execPinResetRelease, hr, State.resetBlocks]

/-- Settles O4: SOFT_RESET by its two conditions, and the grant's own condition. -/
theorem softResetKeepsTheCause : Obligations.SoftResetKeepsTheCause := by
  intro s run hr
  have hexec : ∀ run, exec (.softReset run) s = .next (if s.softPending then s
      else if s.engine.access = none then s.softReset else { s with softPending := true }) :=
    fun _ => by rw [exec, execSoftReset, take_of_running hr]
  have heffect : exec .softResetTakesEffect s =
      .next (if s.softPending ∧ s.engine.access = none then s.softReset else s) := by
    rw [exec, execSoftResetTakesEffect, take_of_running hr]
  refine ⟨fun hp ha => ?_, fun hp ha => ?_, fun hp => ⟨?_, ?_⟩, fun hp ha => ?_, fun h => ?_⟩
  · simp only [hexec, hp, ha, if_true, Bool.false_eq_true, if_false, softReset_eq]
  · simp only [hexec, hp, ha, Bool.false_eq_true, if_false]
  · simp only [hexec, hp, if_true]
  · have hg : s.mayGrant = false := by simp [State.mayGrant, hp]
    rw [exec, execAccessGrant, take_of_running hr]
    simp [hg]
  · simp only [heffect, hp, ha, and_self, if_true, softReset_eq]
  · rw [heffect, if_neg]
    rintro ⟨hp, ha⟩
    rcases h with h | h
    · simp [hp] at h
    · exact h ha

/-- Settles O5: the entry to LOADING, and then the two outcomes of `State.startLoading`. -/
theorem runWritten1StartsLoading : Obligations.RunWritten1StartsLoading := by
  intro s hr
  refine ⟨fun hp => ?_, fun hp => ?_⟩
  · rw [exec, execRunWritten1, take_of_running hr]
    cases hs : s.part
    case stopped => exact absurd hs hp
    all_goals rfl
  · obtain ⟨m, n, he, hab⟩ := enterLoading_eq { s with run := true }
    refine ⟨({ s with run := true } : State).startLoading, ?_, ?_⟩
    · rw [exec, execRunWritten1, take_of_running hr]
      simp only [hp]
    · rw [State.startLoading, he]
      by_cases hfit : maxAddress < s.setupAddr.toNat + 271
      · rw [if_pos hfit]
        exact ⟨rfl, hab, fun _ => ⟨rfl, rfl, rfl, rfl⟩, fun h => absurd h (by omega)⟩
      · rw [if_neg hfit]
        dsimp only [State.requestSetup]
        cases hs : s.softPending with
        | true => exact ⟨rfl, hab, fun h => absurd h hfit, fun _ => ⟨rfl, rfl, rfl, fun r hreq => by subst hreq; rfl⟩⟩
        | false => exact ⟨rfl, hab, fun h => absurd h hfit, fun _ => ⟨rfl, rfl, rfl, fun r hreq => by subst hreq; rfl⟩⟩

/-- Settles O8: only a write of SETUP_ADDR and the resets are no rows of moves, and the moves keep SETUP_ADDR. -/
theorem setupAddrHolds : Obligations.SetupAddrHolds := by
  refine ⟨fun s v hr => ⟨fun hp => ?_, fun hp => ?_⟩, fun c s t h => ?_, fun s t hr h => ?_, fun s t hr h => ?_,
    fun s t run hr hp ha h => ?_, fun s t hr hp ha h => ?_, fun s t hr hp hfit hsoft h => ?_⟩
  · simp [exec, execSetupAddrWrite, take_of_running hr, hp]
  · simp [exec, execSetupAddrWrite, take_of_running hr, hp]
  · cases hc : Instr.resets c with
    | true =>
      have hname : c = .pinReset ∨ c = .pinResetRelease ∨ c = .softResetTakesEffect ∨ ∃ run, c = .softReset run := by
        cases c <;> simp_all [Instr.resets]
      rcases resets_or_stays hc h with rfl | hr | rfl
      · exact .inl rfl
      · exact .inr (.inr ⟨by rw [hr.1]; rfl, by rw [hr.1]; rfl, hname⟩)
      · exact .inl rfl
    | false =>
      by_cases ha : ∃ v, c = .setupAddrWrite v
      · obtain ⟨v, rfl⟩ := ha
        by_cases hp : s.part = .stopped
        · exact .inr (.inl ⟨hp, v, rfl⟩)
        · have hstays : exec (.setupAddrWrite v) s = .next s := take_of_fixed (if_neg hp)
          rw [hstays] at h
          cases h
          exact .inl rfl
      · exact .inl (exec_moves hc (fun v hv => ha ⟨v, hv⟩) h).keepsSetup.setupAddr
  · rw [exec, execPinReset, take_of_running hr] at h
    cases h; rfl
  · rw [exec, execPinResetRelease, if_pos hr] at h
    cases h; rfl
  · rw [(softResetKeepsTheCause s run hr).1 hp ha] at h
    cases h; rfl
  · rw [(softResetKeepsTheCause s false hr).2.2.2.1 hp ha] at h
    cases h; rfl
  · obtain ⟨u, hu, _, _, _, hok⟩ := (runWritten1StartsLoading s hr).2 hp
    rw [hu] at h
    cases h
    rw [(hok hfit).2.2.2 _ rfl, hsoft]
    rfl

/-- Settles O11: every timer stated in ms or µs has one microsecond less left. -/
theorem microsecondAdvancesTimers : Obligations.MicrosecondAdvancesTimers := by
  intro s hr
  refine ⟨_, by rw [exec, execMicrosecondCountRises, take_of_running hr], rfl, ?_, rfl, fun i => ?_, fun c => ?_⟩
  · simp [BitVec.toNat_add]
  · simp [State.line, Line.tick, tickTimer]
  · simp [State.cq, tickTimer]

/-! ### Host memory -/

theorem beginAccess_mem (s : State) (r : Request) : (s.beginAccess r).mem = s.mem := by
  unfold State.beginAccess
  split <;> rfl

/-- Every move keeps the canonical form of host memory. -/
theorem move_memoryOrdered (m : Move tbl s t) (h : MemoryOrdered s) : MemoryOrdered t := by
  have hsame : t.mem = s.mem → MemoryOrdered t := fun e => (congrArg memWf e).trans h
  cases m
  case registers hc _ => exact hsame hc.mem
  case takes ht => exact hsame (by rw [ht.frame])
  case dataRead ht => exact hsame (by rw [ht.frame]; rfl)
  case deliverRx ht | answerTx ht | acceptTx ht => exact hsame (by rw [ht.frame, advanceHead_eq]; rfl)
  case advanceHead => exact hsame (by rw [advanceHead_eq])
  case askRpq => exact hsame (by rw [askRpq_eq]; rfl)
  case askTxq => exact hsame (by rw [askTxq_eq]; rfl)
  case askCtl => exact hsame (by rw [askCtl_eq]; split <;> rfl)
  case grant => exact hsame (beginAccess_mem _ _)
  case readSetup => exact hsame (beginAccess_mem _ _)
  case accessEnds hm _ => exact hm h
  case enterLoading => exact (resetValues_pinReset s).2 h
  all_goals exact hsame rfl

/-- Settles O54: only the end of an access, an abandoned one and the resets change host memory. -/
theorem stepKeepsMemoryOrdered : Obligations.StepKeepsMemoryOrdered := by
  refine keptByEveryStep_of_moves (fun s t hc h => ?_) (fun s t hr h => hr.2 h) fun s t => move_memoryOrdered
  exact (congrArg memWf hc.mem).trans h

/-! ### The state after reset -/

@[simp] theorem reset_line (i : LineNo) : State.reset.line i = Line.reset := by simp [State.line, State.reset]

@[simp] theorem reset_rq (q : RqNo) : State.reset.rq q = ReqQueue.reset := by simp [State.rq, State.reset]

@[simp] theorem reset_cq (c : CqNo) : State.reset.cq c = CplQueue.reset := by simp [State.cq, State.reset]

theorem reset_engine : State.reset.engine = Engine.reset := rfl

theorem reset_results : Engine.reset.results = [] := rfl

theorem reset_requests : Engine.reset.requests = [] := rfl

/-- Settles O53: every list is empty, every counter 0 and every line CLOSED. -/
theorem resetMeetsTheInvariants : Obligations.ResetMeetsTheInvariants := by
  refine ⟨rfl, ⟨fun i => ?_, fun c => ?_, rfl⟩, ⟨fun i => ?_, ?_, ?_, ?_⟩, fun i _ => ?_, fun i => ?_, fun i => ?_,
    fun i => ⟨?_, ?_, ?_⟩, fun i => ?_, fun c => ?_, ?_, ?_, fun q => ?_, fun c => ?_⟩
  · simp [Line.reset, RxSide.reset, Discovery.reset, ReqQueue.reset]
  · simp [CplQueue.reset]
  · simp [Line.reset, TxSide.reset]
  · simp [reset_engine, Engine.reset]
  · simp [reset_engine, Engine.reset]
  · simp [reset_engine, Engine.reset]
  · simp [Line.reset, RxSide.reset, TxSide.reset]
  · simp [Line.reset, Flow.reset]
  · simp [Line.reset, TxSide.reset, ReqQueue.reset]
  · simp [Line.bytesAccounted, Line.reset, TxSide.reset]
  · simp [Line.readsOwned, Line.reset, TxSide.reset]
  · simp [State.readsTied, reset_engine, reset_requests, reset_results, Line.reset, TxSide.reset]
  · simp [Line.reset, RxSide.reset, Line.hasStarted]
  · simp [CplQueue.reset]
  · simp [RateTableValid, State.reset]
  · simp [HoldingGuardsTable, State.reset, ControlUnit.reset]
  · simp [ReqQueue.reset]
  · simp [CplQueue.reset]

end Sys2Proof.Machine
end

section
/-! SUPPORT. Which parts of a line's context each operation over the line can change: its receive side alone, its transmitter
alone, its flow state alone, or a few of them; and what settling changes. -/

namespace Sys2Proof.Machine

variable {l k m : Line}

/-- The two contexts differ at most in the receive side. -/
def OnlyRx (l k : Line) : Prop := k = { l with rx := k.rx }

/-- The two contexts differ at most in the transmitter. -/
def OnlyTx (l k : Line) : Prop := k = { l with tx := k.tx }

/-- The two contexts differ at most in the flow state. -/
def OnlyFlow (l k : Line) : Prop := k = { l with flow := k.flow }

theorem OnlyRx.refl (l : Line) : OnlyRx l l := rfl
theorem OnlyTx.refl (l : Line) : OnlyTx l l := rfl

theorem OnlyRx.trans (h : OnlyRx l k) (h' : OnlyRx k m) : OnlyRx l m := by
  unfold OnlyRx at *
  rw [h', h]

theorem OnlyTx.trans (h : OnlyTx l k) (h' : OnlyTx k m) : OnlyTx l m := by
  unfold OnlyTx at *
  rw [h', h]

theorem OnlyRx.state (h : OnlyRx l k) : k.state = l.state := by rw [h]
theorem OnlyRx.frame (h : OnlyRx l k) : k.frame = l.frame := by rw [h]
theorem OnlyRx.divisor (h : OnlyRx l k) : k.divisor = l.divisor := by rw [h]
theorem OnlyRx.set (h : OnlyRx l k) : k.set = l.set := by rw [h]
theorem OnlyRx.disc (h : OnlyRx l k) : k.disc = l.disc := by rw [h]
theorem OnlyRx.flow (h : OnlyRx l k) : k.flow = l.flow := by rw [h]
theorem OnlyRx.tx (h : OnlyRx l k) : k.tx = l.tx := by rw [h]
theorem OnlyRx.close (h : OnlyRx l k) : k.close = l.close := by rw [h]
theorem OnlyRx.events (h : OnlyRx l k) : k.events = l.events := by rw [h]
theorem OnlyRx.long (h : OnlyRx l k) : k.long = l.long := by rw [h]
theorem OnlyRx.counters (h : OnlyRx l k) : k.counters = l.counters := by rw [h]

theorem OnlyTx.state (h : OnlyTx l k) : k.state = l.state := by rw [h]
theorem OnlyTx.frame (h : OnlyTx l k) : k.frame = l.frame := by rw [h]
theorem OnlyTx.divisor (h : OnlyTx l k) : k.divisor = l.divisor := by rw [h]
theorem OnlyTx.set (h : OnlyTx l k) : k.set = l.set := by rw [h]
theorem OnlyTx.disc (h : OnlyTx l k) : k.disc = l.disc := by rw [h]
theorem OnlyTx.flow (h : OnlyTx l k) : k.flow = l.flow := by rw [h]
theorem OnlyTx.rx (h : OnlyTx l k) : k.rx = l.rx := by rw [h]
theorem OnlyTx.close (h : OnlyTx l k) : k.close = l.close := by rw [h]
theorem OnlyTx.events (h : OnlyTx l k) : k.events = l.events := by rw [h]
theorem OnlyTx.long (h : OnlyTx l k) : k.long = l.long := by rw [h]
theorem OnlyTx.counters (h : OnlyTx l k) : k.counters = l.counters := by rw [h]

theorem OnlyFlow.state (h : OnlyFlow l k) : k.state = l.state := by rw [h]
theorem OnlyFlow.frame (h : OnlyFlow l k) : k.frame = l.frame := by rw [h]
theorem OnlyFlow.divisor (h : OnlyFlow l k) : k.divisor = l.divisor := by rw [h]
theorem OnlyFlow.set (h : OnlyFlow l k) : k.set = l.set := by rw [h]
theorem OnlyFlow.disc (h : OnlyFlow l k) : k.disc = l.disc := by rw [h]
theorem OnlyFlow.rx (h : OnlyFlow l k) : k.rx = l.rx := by rw [h]
theorem OnlyFlow.tx (h : OnlyFlow l k) : k.tx = l.tx := by rw [h]
theorem OnlyFlow.close (h : OnlyFlow l k) : k.close = l.close := by rw [h]
theorem OnlyFlow.events (h : OnlyFlow l k) : k.events = l.events := by rw [h]
theorem OnlyFlow.long (h : OnlyFlow l k) : k.long = l.long := by rw [h]
theorem OnlyFlow.counters (h : OnlyFlow l k) : k.counters = l.counters := by rw [h]

/-! ### The receive side -/

theorem store_onlyRx (l : Line) (bs : List Byte) : OnlyRx l (l.store bs) := by
  unfold OnlyRx Line.store
  repeat' split
  all_goals rfl

theorem releaseHold_onlyRx (l : Line) : OnlyRx l l.releaseHold :=
  (store_onlyRx l l.rx.hold).trans rfl

theorem addErrors_onlyRx (l : Line) (e : ErrorSet) (n : Nat) : OnlyRx l (l.addErrors e n) := by
  unfold OnlyRx Line.addErrors
  repeat' split
  all_goals rfl

theorem startBuffer_onlyRx (l : Line) : OnlyRx l l.startBuffer := by
  unfold OnlyRx Line.startBuffer
  repeat' split
  all_goals rfl

theorem closeBuffer_onlyRx (l : Line) (i : LineNo) (time : Word) (reason : RxReason) (d : Option Nat) :
    OnlyRx l (l.closeBuffer i time reason d) := by
  unfold OnlyRx Line.closeBuffer
  repeat' split
  all_goals rfl

theorem answerFront_onlyRx (l : Line) (i : LineNo) (time : Word) (reason : RxReason) :
    OnlyRx l (l.answerFront i time reason) := by
  unfold OnlyRx Line.answerFront
  split <;> rfl

theorem noteLoss_onlyRx (l : Line) (loss : Bool) : OnlyRx l (l.noteLoss loss) := by
  unfold Line.noteLoss
  split
  · exact (releaseHold_onlyRx l).trans (addErrors_onlyRx _ _ _)
  · rfl

theorem carryLoss_onlyRx (l : Line) (loss : Bool) : OnlyRx l (l.carryLoss loss) := by
  unfold OnlyRx Line.carryLoss
  split <;> rfl

theorem matchChar_onlyRx (l : Line) (i : LineNo) (time : Word) (c : Byte) : OnlyRx l (l.matchChar i time c) := by
  have hhold : ∀ (k : Line) (h : List Byte), OnlyRx k { k with rx := { k.rx with hold := h } } := fun _ _ => rfl
  unfold Line.matchChar
  dsimp only
  split
  · split
    · exact ((store_onlyRx l _).trans (hhold _ [])).trans ((store_onlyRx _ _).trans (closeBuffer_onlyRx _ _ _ _ _))
    · exact ((store_onlyRx l _).trans (hhold _ [])).trans (closeBuffer_onlyRx _ _ _ _ _)
    · exact (store_onlyRx l _).trans (hhold _ [])
  · split
    · exact ((store_onlyRx l _).trans (hhold _ _)).trans ((releaseHold_onlyRx _).trans (closeBuffer_onlyRx _ _ _ _ _))
    · exact (store_onlyRx l _).trans (hhold _ _)

theorem storeErrored_onlyRx (l : Line) (i : LineNo) (time : Word) (v : Byte) (pe fe : Bool) :
    OnlyRx l (l.storeErrored i time v pe fe) := by
  have h := (releaseHold_onlyRx l).trans ((store_onlyRx _ [v]).trans
    (addErrors_onlyRx _ { parity := pe, framing := fe, overrun := false } l.releaseHold.stored))
  unfold Line.storeErrored
  dsimp only
  repeat' split
  · exact h.trans (closeBuffer_onlyRx _ _ _ _ _)
  · exact h.trans (closeBuffer_onlyRx _ _ _ _ _)
  · exact h

theorem takeChar_onlyRx (l : Line) (i : LineNo) (time : Word) (v : Byte) (pe fe loss : Bool) :
    OnlyRx l (l.takeChar i time v pe fe loss) := by
  have h := (startBuffer_onlyRx l).trans (noteLoss_onlyRx l.startBuffer loss)
  unfold Line.takeChar
  dsimp only
  split
  · exact h.trans (storeErrored_onlyRx _ _ _ _ _ _)
  · exact h.trans (matchChar_onlyRx _ _ _ _)

theorem answerBuffer_onlyRx (l : Line) (i : LineNo) (time : Word) : OnlyRx l (l.answerBuffer i time) := by
  unfold Line.answerBuffer
  repeat' split
  · exact (releaseHold_onlyRx l).trans (closeBuffer_onlyRx _ _ _ _ _)
  · exact answerFront_onlyRx _ _ _ _
  · exact answerFront_onlyRx _ _ _ _
  · rfl

theorem takeChunk_onlyRx (l : Line) (i : LineNo) (time : Word) (n : Nat) (ok : Bool) :
    OnlyRx l (l.takeChunk i time n ok) := by
  unfold OnlyRx Line.takeChunk
  dsimp only
  repeat' split
  all_goals rfl

theorem setDelims_onlyRx (l : Line) (r : List Byte) : OnlyRx l (l.setDelims r) := (releaseHold_onlyRx l).trans rfl

theorem gapRestart_onlyRx (l : Line) : OnlyRx l l.gapRestart := by
  unfold OnlyRx Line.gapRestart
  split <;> rfl

theorem chunkIssued_onlyRx (l : Line) : OnlyRx l l.chunkIssued := by
  unfold OnlyRx Line.chunkIssued
  split <;> rfl

/-! ### The flow state -/

theorem flowRise_onlyFlow (l : Line) : OnlyFlow l l.flowRise := by
  unfold OnlyFlow Line.flowRise
  repeat' split
  all_goals rfl

theorem flowFall_onlyFlow (l : Line) : OnlyFlow l l.flowFall := by
  unfold OnlyFlow Line.flowFall
  repeat' split
  all_goals rfl

theorem peerFlow_onlyFlow (l : Line) (c : FlowChar) : OnlyFlow l (l.peerFlow c) := by
  unfold OnlyFlow Line.peerFlow
  repeat' split
  all_goals rfl

/-! ### The transmitter -/

theorem endRecord_onlyTx (l : Line) (i : LineNo) (time : Word) (st : Status) : OnlyTx l (l.endRecord i time st) := by
  unfold OnlyTx Line.endRecord
  split <;> rfl

theorem abortCurrent_onlyTx (l : Line) (i : LineNo) (time : Word) : OnlyTx l (l.abortCurrent i time) := by
  unfold Line.abortCurrent
  repeat' split
  · rfl
  · rfl
  · rfl
  · exact OnlyTx.trans (k := l.stopBreak) rfl (endRecord_onlyTx _ _ _ _)
  · exact endRecord_onlyTx _ _ _ _

theorem flushCurrent_onlyTx (l : Line) (i : LineNo) (time : Word) : OnlyTx l (l.flushCurrent i time) := by
  unfold Line.flushCurrent
  repeat' split
  · rfl
  · rfl
  · exact OnlyTx.trans (k := l.stopBreak) rfl (endRecord_onlyTx _ _ _ _)
  · exact endRecord_onlyTx _ _ _ _

theorem answerTx_onlyTx (l : Line) (i : LineNo) (time : Word) (tag : Half) (st : Status) :
    OnlyTx l (l.answerTx i time tag st) := rfl

theorem acceptTx_onlyTx (l : Line) (i : LineNo) (time : Word) (ws : List Window) (r : TxRecord) :
    OnlyTx l (l.acceptTx i time ws r) := by
  unfold OnlyTx Line.acceptTx
  repeat' split
  all_goals rfl

theorem flowSent_onlyTx (l : Line) (i : LineNo) (time : Word) : OnlyTx l (l.flowSent i time) := by
  unfold Line.flowSent
  dsimp only
  split
  · exact OnlyTx.trans (k := { l with tx := { l.tx with output := .mark } }) rfl (endRecord_onlyTx _ _ _ _)
  · rfl

theorem takeRead_onlyTx (l : Line) (i : LineNo) (time : Word) (data : Option (List Byte)) :
    OnlyTx l (l.takeRead i time data) := by
  have h : OnlyTx l { l with tx := { l.tx with readInFlight := none } } := rfl
  unfold Line.takeRead
  dsimp only
  repeat' split
  · rfl
  · rfl
  · exact h.trans (endRecord_onlyTx _ _ _ _)
  · rfl

theorem readRequested_onlyTx (l : Line) : OnlyTx l l.readRequested := by
  unfold OnlyTx Line.readRequested
  repeat' split
  all_goals rfl

/-! ### Settling -/

theorem chooseOutput_eq (l : Line) :
    l.chooseOutput = { l with tx := l.chooseOutput.tx, flow := l.chooseOutput.flow } := by
  unfold Line.chooseOutput Line.startFlow Line.startData
  repeat' split
  all_goals rfl

theorem chooseOutput_keepsRx (l : Line) : l.chooseOutput.rx = l.rx := by rw [chooseOutput_eq]

theorem chooseOutput_events (l : Line) : l.chooseOutput.events = l.events := by rw [chooseOutput_eq]

theorem beginWindUp_eq (l : Line) : l.beginWindUp = { l with close := l.beginWindUp.close } := by
  unfold Line.beginWindUp
  split <;> rfl

theorem markTxDone_eq (l : Line) (q : ReqQueue) : l.markTxDone q = { l with close := (l.markTxDone q).close } := by
  unfold Line.markTxDone
  split <;> rfl

theorem endDrain_eq (l : Line) : l.endDrain = { l with close := l.endDrain.close, flow := l.endDrain.flow } := by
  unfold Line.endDrain
  split <;> rfl

/-- A flush whose record has ended begins its fetches (R92). -/
def Line.flushFetching (l : Line) : Line :=
  if l.tx.flushPhase = some .ending ∧ l.tx.cur = none then
    { l with tx := { l.tx with flushPhase := some .fetching } } else l

/-- A flush that has reached its boundary or a halt has a CONTROL_DONE due (R94). -/
def Line.flushEnded (l : Line) (q : ReqQueue) : Line :=
  if l.flushing ∧ l.tx.flushPhase = some .fetching ∧ l.tx.slot = none ∧ q.fetch = false ∧ l.tx.flushDue = none then
    if l.tx.flushBoundary = some q.head then { l with tx := { l.tx with flushDue := some .ok } }
    else if q.halted then { l with tx := { l.tx with flushDue := some .queueState } }
    else l
  else l

/-- A due CONTROL_DONE of a flush is appended once the event list has room (R13). -/
def Line.flushAnswered (l : Line) (i : LineNo) (time : Word) : Line :=
  match l.long, l.tx.flushDue with
  | .flushTx tag, some st =>
    if l.events.length < 4 then
      { l with
        events := l.events ++ [longDone i time 6 tag st]
        long := .noRequest
        tx := { l.tx with flushBoundary := none, flushPhase := none, flushDue := none } }
    else l
  | _, _ => l

/-- The three steps of a flush. -/
theorem flushStep_eq_steps (l : Line) (i : LineNo) (time : Word) (q : ReqQueue) :
    l.flushStep i time q = (l.flushFetching.flushEnded q).flushAnswered i time := rfl

/-- What settling leaves alone, and how far it goes where it does not: the record, its end and its slot stay; the slot of
the flow logic may empty and its timer stop; a long request may end. -/
structure SettleKeeps (l k : Line) : Prop where
  state : k.state = l.state
  frame : k.frame = l.frame
  divisor : k.divisor = l.divisor
  rateIndex : k.rateIndex = l.rateIndex
  set : k.set = l.set
  disc : k.disc = l.disc
  counters : k.counters = l.counters
  ownPaused : k.flow.ownPaused = l.flow.ownPaused
  peerPaused : k.flow.peerPaused = l.flow.peerPaused
  flowSlot : k.flow.slot = l.flow.slot ∨ k.flow.slot = none
  flowTimer : k.flow.timer = l.flow.timer ∨ k.flow.timer = none
  cur : k.tx.cur = l.tx.cur
  st : k.tx.st = l.tx.st
  ending : k.tx.ending = l.tx.ending
  slot : k.tx.slot = l.tx.slot
  breakTimer : k.tx.breakTimer = l.tx.breakTimer
  long : k.long = l.long ∨ k.long = .noRequest

theorem SettleKeeps.refl (l : Line) : SettleKeeps l l :=
  ⟨rfl, rfl, rfl, rfl, rfl, rfl, rfl, rfl, rfl, .inl rfl, .inl rfl, rfl, rfl, rfl, rfl, rfl, .inl rfl⟩

/-- One step later, a place holds what it held or is empty. -/
theorem stays_or_empties {α : Type} {a b c e : α} (h : b = a ∨ b = e) (h' : c = b ∨ c = e) : c = a ∨ c = e := by
  rcases h' with rfl | rfl
  · exact h
  · exact .inr rfl

theorem SettleKeeps.trans (h : SettleKeeps l k) (h' : SettleKeeps k m) : SettleKeeps l m where
  state := h'.state.trans h.state
  frame := h'.frame.trans h.frame
  divisor := h'.divisor.trans h.divisor
  rateIndex := h'.rateIndex.trans h.rateIndex
  set := h'.set.trans h.set
  disc := h'.disc.trans h.disc
  counters := h'.counters.trans h.counters
  ownPaused := h'.ownPaused.trans h.ownPaused
  peerPaused := h'.peerPaused.trans h.peerPaused
  flowSlot := stays_or_empties h.flowSlot h'.flowSlot
  flowTimer := stays_or_empties h.flowTimer h'.flowTimer
  cur := h'.cur.trans h.cur
  st := h'.st.trans h.st
  ending := h'.ending.trans h.ending
  slot := h'.slot.trans h.slot
  breakTimer := h'.breakTimer.trans h.breakTimer
  long := stays_or_empties h.long h'.long

/-- A step of settling that keeps the context but for places that settling may change. -/
theorem chunkIssued_keeps (l : Line) : SettleKeeps l l.chunkIssued := by
  unfold Line.chunkIssued
  split <;> exact ⟨rfl, rfl, rfl, rfl, rfl, rfl, rfl, rfl, rfl, .inl rfl, .inl rfl, rfl, rfl, rfl, rfl, rfl, .inl rfl⟩

theorem startData_keeps (l : Line) : SettleKeeps l l.startData := by
  unfold Line.startData
  split <;> exact ⟨rfl, rfl, rfl, rfl, rfl, rfl, rfl, rfl, rfl, .inl rfl, .inl rfl, rfl, rfl, rfl, rfl, rfl, .inl rfl⟩

theorem chooseOutput_keeps (l : Line) : SettleKeeps l l.chooseOutput := by
  unfold Line.chooseOutput
  split
  · split
    · split
      · exact ⟨rfl, rfl, rfl, rfl, rfl, rfl, rfl, rfl, rfl, .inr rfl, .inl rfl, rfl, rfl, rfl, rfl, rfl, .inl rfl⟩
      · split
        · exact startData_keeps l
        · exact .refl l
    · split
      · exact startData_keeps l
      · exact .refl l
  · exact .refl l

theorem readRequested_keeps (l : Line) : SettleKeeps l l.readRequested := by
  unfold Line.readRequested
  repeat' split
  all_goals exact ⟨rfl, rfl, rfl, rfl, rfl, rfl, rfl, rfl, rfl, .inl rfl, .inl rfl, rfl, rfl, rfl, rfl, rfl, .inl rfl⟩

theorem beginWindUp_keeps (l : Line) : SettleKeeps l l.beginWindUp := by
  unfold Line.beginWindUp
  split <;> exact ⟨rfl, rfl, rfl, rfl, rfl, rfl, rfl, rfl, rfl, .inl rfl, .inl rfl, rfl, rfl, rfl, rfl, rfl, .inl rfl⟩

theorem markTxDone_keeps (l : Line) (q : ReqQueue) : SettleKeeps l (l.markTxDone q) := by
  unfold Line.markTxDone
  split <;> exact ⟨rfl, rfl, rfl, rfl, rfl, rfl, rfl, rfl, rfl, .inl rfl, .inl rfl, rfl, rfl, rfl, rfl, rfl, .inl rfl⟩

theorem endDrain_keeps (l : Line) : SettleKeeps l l.endDrain := by
  unfold Line.endDrain
  split
  · exact ⟨rfl, rfl, rfl, rfl, rfl, rfl, rfl, rfl, rfl, .inl rfl, .inr rfl, rfl, rfl, rfl, rfl, rfl, .inl rfl⟩
  · exact .refl l

theorem flushFetching_keeps (l : Line) : SettleKeeps l l.flushFetching := by
  unfold Line.flushFetching
  split <;> exact ⟨rfl, rfl, rfl, rfl, rfl, rfl, rfl, rfl, rfl, .inl rfl, .inl rfl, rfl, rfl, rfl, rfl, rfl, .inl rfl⟩

theorem flushEnded_keeps (l : Line) (q : ReqQueue) : SettleKeeps l (l.flushEnded q) := by
  unfold Line.flushEnded
  repeat' split
  all_goals exact ⟨rfl, rfl, rfl, rfl, rfl, rfl, rfl, rfl, rfl, .inl rfl, .inl rfl, rfl, rfl, rfl, rfl, rfl, .inl rfl⟩

theorem flushAnswered_keeps (l : Line) (i : LineNo) (time : Word) : SettleKeeps l (l.flushAnswered i time) := by
  unfold Line.flushAnswered
  split
  · split
    · exact ⟨rfl, rfl, rfl, rfl, rfl, rfl, rfl, rfl, rfl, .inl rfl, .inl rfl, rfl, rfl, rfl, rfl, rfl, .inr rfl⟩
    · exact .refl l
  · exact .refl l

theorem flushStep_keeps (l : Line) (i : LineNo) (time : Word) (q : ReqQueue) :
    SettleKeeps l (l.flushStep i time q) :=
  (flushFetching_keeps l).trans ((flushEnded_keeps _ q).trans (flushAnswered_keeps _ i time))

theorem settled_keeps (l : Line) (i : LineNo) (time : Word) (q : ReqQueue) : SettleKeeps l (l.settled i time q) :=
  (((((chunkIssued_keeps l).trans (chooseOutput_keeps _)).trans (readRequested_keeps _)).trans
    (beginWindUp_keeps _)).trans (markTxDone_keeps _ q)).trans ((endDrain_keeps _).trans (flushStep_keeps _ i time q))

theorem flushStep_rx (l : Line) (i : LineNo) (time : Word) (q : ReqQueue) : (l.flushStep i time q).rx = l.rx := by
  rw [flushStep_eq_steps]
  unfold Line.flushAnswered Line.flushEnded Line.flushFetching
  repeat' split
  all_goals rfl

/-- Of the receive side, settling changes the chunk and its write in flight alone. -/
theorem settled_rx (l : Line) (i : LineNo) (time : Word) (q : ReqQueue) :
    (l.settled i time q).rx = l.chunkIssued.rx := by
  rw [Line.settled, flushStep_rx, endDrain_eq, markTxDone_eq, beginWindUp_eq]
  exact (readRequested_onlyTx _).rx.trans (chooseOutput_keepsRx _)

theorem flushFetching_events (l : Line) : l.flushFetching.events = l.events := by
  unfold Line.flushFetching
  split <;> rfl

theorem flushEnded_events (l : Line) (q : ReqQueue) : (l.flushEnded q).events = l.events := by
  unfold Line.flushEnded
  repeat' split
  all_goals rfl

theorem flushAnswered_events (l : Line) (i : LineNo) (time : Word) : (l.flushAnswered i time).events = l.events ∨
    ∃ c, l.events.length < 4 ∧ (l.flushAnswered i time).events = l.events ++ [c] := by
  unfold Line.flushAnswered
  split
  · split
    next h => exact .inr ⟨_, h, rfl⟩
    · exact .inl rfl
  · exact .inl rfl

/-- Settling appends at most one event, to a list with room. -/
theorem settled_events (l : Line) (i : LineNo) (time : Word) (q : ReqQueue) :
    (l.settled i time q).events = l.events ∨
      ∃ c, l.events.length < 4 ∧ (l.settled i time q).events = l.events ++ [c] := by
  have hbefore : (((l.chunkIssued.chooseOutput.readRequested).beginWindUp.markTxDone q).endDrain).events = l.events := by
    rw [endDrain_eq, markTxDone_eq, beginWindUp_eq]
    exact (readRequested_onlyTx _).events.trans ((chooseOutput_events _).trans (chunkIssued_onlyRx l).events)
  have h := flushAnswered_events (Line.flushEnded (Line.flushFetching
    (((l.chunkIssued.chooseOutput.readRequested).beginWindUp.markTxDone q).endDrain)) q) i time
  rwa [flushEnded_events, flushFetching_events, hbefore] at h

/-! ### The states and settings after the happenings of a line -/

theorem endRecord_state (l : Line) (i : LineNo) (time : Word) (st : Status) : (l.endRecord i time st).state = l.state :=
  (endRecord_onlyTx l i time st).state

theorem abort_state (l : Line) (i : LineNo) (time : Word) : (l.abort i time).state = l.state :=
  (abortCurrent_onlyTx _ i time).state

theorem failDiscovery_state (l : Line) (i : LineNo) (time : Word) (r : FailReason) :
    (l.failDiscovery i time r).state = .closing := abort_state _ i time

theorem failAttempt_state (l : Line) (i : LineNo) (time : Word) :
    (l.failAttempt i time).state = .closing ∨ (l.failAttempt i time).state = .seek := by
  unfold Line.failAttempt
  dsimp only
  split
  · exact .inl (failDiscovery_state _ i time _)
  · exact .inr rfl

theorem appendEvent_state (l : Line) (c : Completion) : (l.appendEvent c).state = l.state := by
  unfold Line.appendEvent
  split <;> rfl

theorem join_state (l : Line) (e : Bool → FifoEntry) : (l.join e).state = l.state :=
  (flowRise_onlyFlow _).state

theorem joinChar_state (l : Line) (v : Byte) (pe fe : Bool) : (l.joinChar v pe fe).state = l.state := join_state _ _

theorem keepTrialPair_state (l : Line) (v w : Byte) : (l.keepTrialPair v w).state = l.state :=
  (gapRestart_onlyRx _).state.trans ((joinChar_state _ _ _ _).trans (joinChar_state _ _ _ _))

theorem succeed_state (l : Line) (i : LineNo) (time : Word) (t : List RateEntry) (v w : Byte) :
    (l.succeed i time t v w).state = .opened := by
  unfold Line.succeed
  dsimp only
  rw [appendEvent_state]
  split
  · exact keepTrialPair_state _ _ _
  · rfl

end Sys2Proof.Machine
end

section
/-! SUPPORT. What a move can do to one line, said once: the invariants that speak of one line at a time are proved over these
changes. -/

namespace Sys2Proof.Machine

variable {tbl : Bool} {s t : State}

/-- What a move from `s` to `t` can leave line `i` as. A line that has taken a record from one of its queues has a fetch
of that queue in flight only if it has asked for it again. -/
inductive LineChange (s t : State) (i : LineNo) : Line → Prop
  | same : LineChange s t i (s.line i)
  | quiet (l : Line) : QuietMove s i l → LineChange s t i l
  | takes (l : Line) (time : Word) (q : ReqQueue) : LineMove s i l → LineChange s t i (l.settled i time q)
  | dataRead (n : Nat) (x : Result) (time : Word) (q : ReqQueue) : (s.line i).tx.readInFlight = some n →
      s.result? (.dataRead i) = some x → LineChange s t i (((s.line i).takeRead i time x.data).settled i time q)
  | deliverRx (b : RxBuf) (time : Word) (q : ReqQueue) : (s.rq (rpq i)).fetch = true → (s.line i).acceptsRx = true →
      (∃ ws r, b = checkRxBuf ws (rxBufOf r)) →
      ((t.rq (rpq i)).fetch = true → ∃ x, Line.asksRpq (Line.settled { s.line i with
        rx := { (s.line i).rx with bufs := (s.line i).rx.bufs ++ [b] } } i time q) x = true) →
      LineChange s t i (Line.settled { s.line i with
        rx := { (s.line i).rx with bufs := (s.line i).rx.bufs ++ [b] } } i time q)
  | answerTx (tag : Half) (st : Status) (time : Word) (q : ReqQueue) : (s.rq (txq i)).fetch = true →
      (s.line i).state ≠ .closed → ((t.rq (txq i)).fetch = true →
        ∃ x, (((s.line i).answerTx i time tag st).settled i time q).asksTxq x = true) →
      LineChange s t i (((s.line i).answerTx i time tag st).settled i time q)
  | acceptTx (r : TxRecord) (ws : List Window) (time : Word) (q : ReqQueue) : (s.rq (txq i)).fetch = true →
      (s.line i).wantsOrdinary (s.rq (txq i)).head = true → ((t.rq (txq i)).fetch = true →
        ∃ x, (((s.line i).acceptTx i time ws r).settled i time q).asksTxq x = true) →
      LineChange s t i (((s.line i).acceptTx i time ws r).settled i time q)
  | stopLine (time : Word) : LineChange s t i ((s.line i).stopLine i time)
  | tick : LineChange s t i (s.line i).tick
  | fresh : LineChange s t i Line.reset
  | expireStop : LineChange s t i (s.line i).expireStop

theorem LineChange.of_eq {i : LineNo} {l k : Line} (h : LineChange s t i l) (e : k = l) : LineChange s t i k := e ▸ h

theorem freshLines_line (i : LineNo) : freshLines[i] = Line.reset := by simp [freshLines]

theorem LineTakes.line {i j : LineNo} {l : Line} (h : LineTakes i s t l) :
    (j = i ∧ t.line j = l.settled i s.time (s.rq (txq i))) ∨ t.line j = s.line j := by
  by_cases hj : j = i
  · subst hj; exact .inl ⟨rfl, h.2.1⟩
  · exact .inr (h.1.2 j hj).1

theorem advanceHead_line (s : State) (q : RqNo) (i : LineNo) : (s.advanceHead q).line i = s.line i := by
  rw [advanceHead_eq]; rfl

theorem advanceHead_time (s : State) (q : RqNo) : (s.advanceHead q).time = s.time := by
  rw [advanceHead_eq]

theorem beginAccess_lines (s : State) (r : Request) : (s.beginAccess r).lines = s.lines := by
  unfold State.beginAccess
  split <;> rfl

theorem advanceHead_endFetch_fetch (s : State) (q : RqNo) : (((s.endFetch q).advanceHead q).rq q).fetch = false := by
  rw [advanceHead_eq]
  exact (congrArg ReqQueue.fetch (State.rq_setRq_self _ q _)).trans
    (congrArg ReqQueue.fetch (State.rq_setRq_self s q _))

/-- A fetch that was not in flight is so only after the line has asked for it. -/
theorem LineTakes.asks_of_fetch {i : LineNo} {l : Line} (h : LineTakes i s t l) {p : RqNo} (hp : (s.rq p).fetch = false) :
    ((t.rq (rpq i)).fetch = true → p = rpq i → (t.line i).asksRpq (s.rq p) = true) ∧
      ((t.rq (txq i)).fetch = true → p = txq i → (t.line i).asksTxq (s.rq p) = true) := by
  refine ⟨fun hf he => ?_, fun hf he => ?_⟩
  · subst he
    rw [h.rq_rpq, hp] at hf
    exact hf
  · subst he
    rw [h.rq_txq, hp] at hf
    exact hf

/-- Every move changes a line in one of these ways. -/
theorem Move.line (m : Move tbl s t) (j : LineNo) : LineChange s t j (t.line j) := by
  have hsame : t.lines = s.lines → LineChange s t j (t.line j) := fun e => LineChange.same.of_eq (State.line_congr e j)
  cases m
  case registers hc _ => exact hsame hc.lines
  case quiet i l hq =>
    by_cases hj : j = i
    · subst hj; exact (LineChange.quiet l hq).of_eq (State.line_setLine_self _ _ _)
    · exact LineChange.same.of_eq (State.line_setLine_ne s l hj)
  case takes i l hl ht =>
    rcases ht.line (j := j) with ⟨rfl, e⟩ | e
    · exact (LineChange.takes l _ _ hl).of_eq e
    · exact LineChange.same.of_eq e
  case dataRead i n x hn hx ht =>
    rcases ht.line (j := j) with ⟨rfl, e⟩ | e
    · exact (LineChange.dataRead n x _ _ hn hx).of_eq e
    · exact LineChange.same.of_eq e
  case deliverRx i r hf _ ha ht =>
    rcases ht.line (j := j) with ⟨rfl, e⟩ | e
    · refine (LineChange.deliverRx _ _ _ hf ha ⟨_, r, rfl⟩ fun hfetch => ?_).of_eq e
      exact ⟨_, e ▸ (ht.asks_of_fetch (advanceHead_endFetch_fetch s _)).1 hfetch rfl⟩
    · exact LineChange.same.of_eq (e.trans (advanceHead_line _ _ _))
  case answerTx i tag st hf _ hc ht =>
    rcases ht.line (j := j) with ⟨rfl, e⟩ | e
    · rw [advanceHead_time] at e
      refine (LineChange.answerTx tag st _ _ hf hc fun hfetch => ?_).of_eq e
      exact ⟨_, e ▸ (ht.asks_of_fetch (advanceHead_endFetch_fetch s _)).2 hfetch rfl⟩
    · exact LineChange.same.of_eq (e.trans (advanceHead_line _ _ _))
  case acceptTx i r hf _ hw ht =>
    rcases ht.line (j := j) with ⟨rfl, e⟩ | e
    · rw [advanceHead_time] at e
      refine (LineChange.acceptTx r _ _ _ hf hw fun hfetch => ?_).of_eq e
      exact ⟨_, e ▸ (ht.asks_of_fetch (advanceHead_endFetch_fetch s _)).2 hfetch rfl⟩
    · exact LineChange.same.of_eq (e.trans (advanceHead_line _ _ _))
  case stopLines => exact (LineChange.stopLine s.time).of_eq (by simp [State.line])
  case tick => exact LineChange.tick.of_eq (by simp [State.line])
  case advanceHead => exact hsame (by rw [advanceHead_eq])
  case askRpq => exact hsame (by rw [askRpq_eq]; rfl)
  case askTxq => exact hsame (by rw [askTxq_eq]; rfl)
  case askCtl => exact hsame (by rw [askCtl_eq]; split <;> rfl)
  case grant => exact hsame (beginAccess_lines _ _)
  case readSetup => exact hsame (beginAccess_lines _ _)
  case enterLoading =>
    obtain ⟨m, n, he, _⟩ := enterLoading_eq s
    rw [he]
    exact LineChange.fresh.of_eq (freshLines_line j)
  case enterFaulted => exact LineChange.fresh.of_eq (freshLines_line j)
  case expireStopLimit => exact LineChange.expireStop.of_eq (by simp [State.line, State.expireStopLimit])
  all_goals exact hsame rfl

/-- After a reset every line is fresh. -/
theorem ResetValues.line (h : ResetValues s t) (i : LineNo) : t.line i = Line.reset := by
  rw [h.1]
  exact reset_line i

/-- What every change of a line keeps, and a fresh line has, every step keeps of every line. -/
theorem keptByEveryStep_of_changes {P : LineNo → Line → Prop} (hreset : ∀ i, P i Line.reset)
    (hchange : ∀ s t i l, P i (s.line i) → LineChange s t i l → P i l) :
    KeptByEveryStep fun s => ∀ i, P i (s.line i) :=
  keptByEveryStep_of_moves (fun _ _ hc h i => State.line_congr hc.lines i ▸ h i)
    (fun _ _ hr _ i => hr.line i ▸ hreset i) fun s t m h i => hchange s t i _ (h i) (m.line i)

end Sys2Proof.Machine
end

section
/-! PROOF. A CLOSED line stays empty (R2), and own_paused and the flow pending slot stay in one of their four combinations
(R98, R99). -/

namespace Sys2Proof.Machine

variable {s : State} {i : LineNo} {l : Line}

/-! ### The states that the happenings leave -/

theorem inSession_ne_closed {x : LineState} (h : inSession x = true) : x ≠ .closed := by
  rintro rfl
  simp [inSession] at h

theorem draining_state (h : l.draining = true) : l.state = .closing := (of_decide_eq_true h).1

theorem modify_state (l : Line) (r : List Byte) : (l.modify r).state = l.state := by
  unfold Line.modify
  dsimp only
  split
  · exact (flowRise_onlyFlow _).state
  · exact (flowFall_onlyFlow _).state

theorem openWith_state (l : Line) (r : List Byte) : (l.openWith r).state = .opened ∨ (l.openWith r).state = .seek := by
  unfold Line.openWith
  dsimp only
  split
  · exact .inl rfl
  · exact .inr rfl

theorem flushRx_state (l : Line) (i : LineNo) (time : Word) : (l.flushRx i time).state = l.state := by
  unfold Line.flushRx
  dsimp only
  split
  · split <;> rfl
  · refine (flowFall_onlyFlow _).state.trans ?_
    split
    · exact (closeBuffer_onlyRx _ _ _ _ _).state.trans (releaseHold_onlyRx _).state
    · rfl

theorem takeFlush_state (l : Line) (i : LineNo) (time : Word) (tag : Half) (n : Nat) :
    (l.takeFlush i time tag n).state = l.state := (flushCurrent_onlyTx _ i time).state

theorem takeClose_state (l : Line) (i : LineNo) (time : Word) (m : CloseMode) (tag : Half) (limit n : Nat) :
    (l.takeClose i time m tag limit n).state = .closing := by
  unfold Line.takeClose
  cases m
  · rfl
  · exact abort_state _ i time

theorem overtake_state (l : Line) (i : LineNo) (time : Word) (g tag : Half) :
    (l.overtake i time g tag).state = l.state := by
  unfold Line.overtake
  dsimp only
  split
  · exact abort_state _ i time
  · rfl

theorem openChar_state (l : Line) (c : Received) : (l.openChar c).state = l.state := by
  have hg := (gapRestart_onlyRx l).state
  unfold Line.openChar
  dsimp only
  repeat' split
  · exact (peerFlow_onlyFlow _ _).state.trans hg
  · exact hg
  · exact (joinChar_state _ _ _ _).trans hg

theorem trialChar_state (l : Line) (i : LineNo) (time : Word) (t : List RateEntry) (c : Received)
    (h : l.state = .trial) : (l.trialChar i time t c).state ≠ .closed := by
  have hfail : (l.failAttempt i time).state ≠ .closed := by
    rcases failAttempt_state l i time with e | e <;> simp [e]
  unfold Line.trialChar
  dsimp only
  repeat' split
  · exact hfail
  · simp [h]
  · exact hfail
  · simp [succeed_state]

theorem openBreak_state (l : Line) : l.openBreak.state = l.state := by
  unfold Line.openBreak
  dsimp only
  split
  · rfl
  · exact join_state _ _

theorem evaluateWindow_state (l : Line) (i : LineNo) (time : Word) (t : List RateEntry) :
    (l.evaluateWindow i time t).state ≠ .closed := by
  unfold Line.evaluateWindow
  split
  · simp
  · rcases failAttempt_state l i time with e | e <;> simp [e]

theorem takeInterval_state (l : Line) (i : LineNo) (time : Word) (t : List RateEntry) (n : Nat) (h : l.state = .seek) :
    (l.takeInterval i time t n).state ≠ .closed := by
  unfold Line.takeInterval
  dsimp only
  split
  · simp [h]
  · split
    · exact evaluateWindow_state _ i time t
    · simp [h]

theorem gapExpire_state (l : Line) : l.gapExpire.state = l.state := by
  unfold Line.gapExpire
  dsimp only
  split
  · exact join_state _ _
  · rfl

theorem takeMarker_state (l : Line) (gap : Bool) (i : LineNo) (time : Word) (loss : Bool) :
    (l.takeMarker gap i time loss).state = l.state := by
  unfold Line.takeMarker Line.takeGap Line.takeBreak
  dsimp only
  repeat' split
  · exact (closeBuffer_onlyRx _ _ _ _ _).state.trans ((noteLoss_onlyRx _ _).state.trans (releaseHold_onlyRx _).state)
  · exact (carryLoss_onlyRx _ _).state
  · exact (closeBuffer_onlyRx _ _ _ _ _).state.trans ((noteLoss_onlyRx _ _).state.trans (releaseHold_onlyRx _).state)
  · exact (carryLoss_onlyRx _ _).state.trans (appendEvent_state _ _)

theorem popFifo_flowFall_state (l : Line) : l.popFifo.flowFall.state = l.state := (flowFall_onlyFlow _).state

theorem stopLine_state (l : Line) (i : LineNo) (time : Word) :
    (l.stopLine i time).state = if l.state = .closed then .closed else .closing := by
  unfold Line.stopLine
  cases hs : l.state
  case closed => exact hs
  case closing =>
    cases hd : l.draining
    · exact hs
    · exact (abort_state l i time).trans hs
  all_goals exact abort_state _ i time

/-- The writer takes entries of a line in OPEN or a drain alone. -/
theorem writerMayTake_ne_closed (h : l.writerMayTake = true) : l.state ≠ .closed := by
  intro hc
  simp [Line.writerMayTake, Line.draining, hc] at h

/-! ### A CLOSED line holds nothing -/

/-- A line that is CLOSED is empty (R2). -/
def Line.closedEmpty (l : Line) : Prop :=
  l.state = .closed →
    l.rx.bufs = [] ∧ l.rx.fifo = [] ∧ l.rx.hold = [] ∧ l.tx.cur = none ∧ l.long = .noRequest

theorem closedEmpty_of_ne (h : l.state ≠ .closed) : l.closedEmpty := fun hc => absurd hc h

theorem closedEmpty_of_state {k : Line} (e : l.state = k.state) (h : k.state ≠ .closed) : l.closedEmpty :=
  closedEmpty_of_ne (e.symm ▸ h)

theorem closedEmpty_settled (time : Word) (q : ReqQueue) (h : l.closedEmpty) : (l.settled i time q).closedEmpty := by
  have hk := settled_keeps l i time q
  intro hc
  obtain ⟨hb, hf, hh, hcur, hl⟩ := h (hk.state ▸ hc)
  have hrx : l.chunkIssued.rx.bufs = l.rx.bufs ∧ l.chunkIssued.rx.fifo = l.rx.fifo ∧ l.chunkIssued.rx.hold = l.rx.hold := by
    unfold Line.chunkIssued
    split <;> exact ⟨rfl, rfl, rfl⟩
  rw [settled_rx, hrx.1, hrx.2.1, hrx.2.2, hk.cur]
  exact ⟨hb, hf, hh, hcur, hk.long.elim (fun e => e.trans hl) id⟩

/-- An end of a record changes nothing where none is current. -/
theorem endRecord_of_none (h : l.tx.cur = none) (time : Word) (st : Status) : l.endRecord i time st = l := by
  simp [Line.endRecord, h]

theorem dataSent_of_none (h : l.tx.cur = none) (time : Word) :
    (l.dataSent i time).state = l.state ∧ (l.dataSent i time).rx = l.rx ∧ (l.dataSent i time).tx.cur = none ∧
      (l.dataSent i time).long = l.long := by
  unfold Line.dataSent
  simp only [h, Option.map_none]
  cases l.tx.ending
  · exact ⟨rfl, rfl, rfl, rfl⟩
  · dsimp only
    rw [endRecord_of_none rfl]
    exact ⟨rfl, rfl, rfl, rfl⟩

/-- A chunk write's result changes no list of an empty receive side. -/
theorem takeChunk_of_empty (hb : l.rx.bufs = []) (time : Word) (n : Nat) (ok : Bool) :
    (l.takeChunk i time n ok).rx.bufs = [] ∧ (l.takeChunk i time n ok).rx.fifo = l.rx.fifo ∧
      (l.takeChunk i time n ok).rx.hold = l.rx.hold := by
  unfold Line.takeChunk
  dsimp only
  split
  · exact ⟨hb, rfl, rfl⟩
  · split
    · exact ⟨hb, rfl, rfl⟩
    · rw [hb]
      exact ⟨rfl, rfl, rfl⟩

theorem appendEvent_keeps (l : Line) (c : Completion) :
    (l.appendEvent c).state = l.state ∧ (l.appendEvent c).rx = l.rx ∧ (l.appendEvent c).tx = l.tx ∧
      (l.appendEvent c).flow = l.flow ∧ (l.appendEvent c).set = l.set ∧ (l.appendEvent c).long = l.long ∧
      (l.appendEvent c).close = l.close ∧ (l.appendEvent c).disc = l.disc := by
  unfold Line.appendEvent
  split <;> exact ⟨rfl, rfl, rfl, rfl, rfl, rfl, rfl, rfl⟩

theorem closedEmpty_lineMove (m : LineMove s i l) (h : (s.line i).closedEmpty) : l.closedEmpty := by
  cases m with
  | settle => exact h
  | openLine r _ _ _ => exact closedEmpty_of_ne (by rcases openWith_state (s.line i) r with e | e <;> simp [e])
  | modify r hs => exact closedEmpty_of_state (modify_state _ r) (inSession_ne_closed hs)
  | setDelims r hs _ => exact closedEmpty_of_state (setDelims_onlyRx _ r).state (inSession_ne_closed hs)
  | rediscover _ _ _ => exact closedEmpty_of_ne (by simp [Line.rediscover, Line.enterSeek])
  | takeFlush tag n hs => exact closedEmpty_of_state (takeFlush_state _ i _ tag n) (inSession_ne_closed hs)
  | flushRx hs => exact closedEmpty_of_ne (by simp [flushRx_state, hs])
  | takeClose m tag lim n _ => exact closedEmpty_of_ne (by simp [takeClose_state])
  | overtake g tag hl =>
    refine closedEmpty_of_state (overtake_state _ i _ g tag) fun hc => ?_
    obtain ⟨_, _, _, _, hlong⟩ := h hc
    rw [hl] at hlong
    cases hlong
  | openChar c hs => exact closedEmpty_of_ne (by simp [openChar_state, hs])
  | trialChar c hs => exact closedEmpty_of_ne (trialChar_state _ i _ _ c hs)
  | openBreak hs => exact closedEmpty_of_ne (by simp [openBreak_state, hs])
  | failAttempt _ =>
    exact closedEmpty_of_ne (by rcases failAttempt_state (s.line i) i s.time with e | e <;> simp [e])
  | takeInterval n hs => exact closedEmpty_of_ne (takeInterval_state _ i _ _ n hs)
  | gapExpire hs => exact closedEmpty_of_ne (by simp [gapExpire_state, hs])
  | failDiscovery r _ => exact closedEmpty_of_ne (by simp [failDiscovery_state])
  | takeChar v pe fe loss hw _ =>
    refine closedEmpty_of_ne ?_
    rw [(takeChar_onlyRx _ _ _ _ _ _ _).state, popFifo_flowFall_state]
    exact writerMayTake_ne_closed hw
  | takeMarker gap loss hw =>
    refine closedEmpty_of_ne ?_
    rw [takeMarker_state, popFifo_flowFall_state]
    exact writerMayTake_ne_closed hw
  | answerBuffer hs _ => exact closedEmpty_of_state (answerBuffer_onlyRx _ _ _).state hs
  | takeChunk n ok _ =>
    intro hc
    have hx := takeChunk_onlyRx (s.line i) i s.time n ok
    obtain ⟨hb, hf, hh, hcur, hl⟩ := h (hx.state ▸ hc)
    obtain ⟨hb', hf', hh'⟩ := takeChunk_of_empty (i := i) hb s.time n ok
    exact ⟨hb', hf'.trans hf, hh'.trans hh, hx.tx ▸ hcur, hx.long ▸ hl⟩
  | dataSent bits _ =>
    by_cases hc : (s.line i).state = .closed
    · obtain ⟨hb, hf, hh, hcur, hl⟩ := h hc
      obtain ⟨_, hrx, hcur', hl'⟩ := dataSent_of_none (i := i) hcur s.time
      exact fun _ => by rw [hrx, hl']; exact ⟨hb, hf, hh, hcur', hl⟩
    · refine closedEmpty_of_ne ?_
      unfold Line.dataSent
      dsimp only
      repeat' split
      · exact (endRecord_state _ _ _ _).symm ▸ hc
      · exact hc
      · exact (endRecord_state _ _ _ _).symm ▸ hc
      · exact hc
      · exact hc
  | flowSent c bits _ =>
    intro hc
    have hx := flowSent_onlyTx (s.line i) i s.time
    obtain ⟨hb, hf, hh, hcur, hl⟩ := h (hx.state ▸ hc)
    rw [hx.rx, hx.long]
    refine ⟨hb, hf, hh, ?_, hl⟩
    unfold Line.flowSent
    dsimp only
    split
    · rw [endRecord_of_none (by exact hcur)]; exact hcur
    · exact hcur
  | endBreak _ =>
    intro hc
    have hx := endRecord_onlyTx (s.line i).stopBreak i s.time .ok
    obtain ⟨hb, hf, hh, hcur, hl⟩ := h (hx.state ▸ hc)
    rw [hx.rx, hx.long, endRecord_of_none (by exact hcur)]
    exact ⟨hb, hf, hh, hcur, hl⟩
  | pauseExpire _ =>
    obtain ⟨hs, hrx, htx, _, _, hl, _⟩ := appendEvent_keeps
      { s.line i with flow := { (s.line i).flow with peerPaused := false, timer := none } }
      ((s.line i).event s.time (.pauseExpired i))
    intro hc
    rw [Line.pauseExpire, hrx, htx, hl]
    exact h (hs ▸ hc)
  | cutDrain hd => exact closedEmpty_of_ne (by simp [abort_state, draining_state hd])
  | event c =>
    obtain ⟨hs, hrx, htx, _, _, hl, _⟩ := appendEvent_keeps (s.line i) c
    intro hc
    rw [hrx, htx, hl]
    exact h (hs ▸ hc)

theorem closedEmpty_quietMove (m : QuietMove s i l) (h : (s.line i).closedEmpty) : l.closedEmpty := by
  cases m with
  | clearCounters => exact h
  | breakEnds hs => exact closedEmpty_of_state (gapRestart_onlyRx _).state (by simp [hs])
  | measure _ => exact h
  | assembler _ => exact h
  | finishClose _ _ => exact fun _ => ⟨rfl, rfl, rfl, rfl, rfl⟩
  | giveUpRx _ _ => exact h
  | giveUpTx _ => exact h
  | giveUpEvent => exact h

theorem closedEmpty_change (h : (s.line i).closedEmpty) (m : LineChange s t i l) : l.closedEmpty := by
  cases m with
  | same => exact h
  | quiet _ m => exact closedEmpty_quietMove m h
  | takes _ _ _ m => exact closedEmpty_settled _ _ (closedEmpty_lineMove m h)
  | dataRead n x time q _ _ =>
    refine closedEmpty_settled _ _ fun hc => ?_
    have hx := takeRead_onlyTx (s.line i) i time x.data
    obtain ⟨hb, hf, hh, hcur, hl⟩ := h (hx.state ▸ hc)
    rw [hx.rx, hx.long]
    exact ⟨hb, hf, hh, by simp [Line.takeRead, hcur], hl⟩
  | deliverRx b time q _ ha _ _ =>
    refine closedEmpty_settled _ _ (closedEmpty_of_ne fun hc => ?_)
    have hc : (s.line i).state = .closed := hc
    simp [Line.acceptsRx, inSession, Line.draining, hc] at ha
  | answerTx tag st time q _ hs _ => exact closedEmpty_settled _ _ (closedEmpty_of_ne hs)
  | acceptTx r ws time q _ hw _ =>
    refine closedEmpty_settled _ _ (closedEmpty_of_state (acceptTx_onlyTx _ _ _ _ _).state fun hc => ?_)
    simp [Line.wantsOrdinary, Line.draining, hc] at hw
  | stopLine time =>
    intro hc
    rw [stopLine_state] at hc
    have hs : (s.line i).state = .closed := by
      by_contra hn
      rw [if_neg hn] at hc
      cases hc
    rw [show (s.line i).stopLine i time = s.line i by simp [Line.stopLine, hs]]
    exact h hs
  | tick => exact h
  | fresh => exact fun _ => ⟨rfl, rfl, rfl, rfl, rfl⟩
  | expireStop =>
    unfold Line.expireStop
    split
    · exact h
    · exact fun _ => ⟨rfl, rfl, rfl, rfl, rfl⟩

/-! ### The flow state -/

/-- The flow state is one of the four combinations of R99, and clear with flow mode NONE (R98). -/
def Flow.fits (f : Flow) (mode : FlowMode) : Prop :=
  (f.slot = some .pause → f.ownPaused = true) ∧ (f.slot = some .resume → f.ownPaused = false) ∧
    (mode = .noFlow → f = Flow.reset)

/-- The flow state of a line fits its flow mode. -/
def Line.flowFits (l : Line) : Prop := l.flow.fits l.set.flowMode

theorem fits_reset (mode : FlowMode) : Flow.reset.fits mode := by simp [Flow.fits, Flow.reset]

/-- Emptying the slot, stopping the timer and ending the peer's pause keep the combinations. -/
theorem Flow.fits.clears {f g : Flow} {mode : FlowMode} (h : f.fits mode) (hown : g.ownPaused = f.ownPaused)
    (hpeer : g.peerPaused = f.peerPaused ∨ g.peerPaused = false) (hslot : g.slot = f.slot ∨ g.slot = none)
    (htimer : g.timer = f.timer ∨ g.timer = none) : g.fits mode := by
  obtain ⟨hp, hr, hn⟩ := h
  refine ⟨fun e => ?_, fun e => ?_, fun hm => ?_⟩
  · rcases hslot with hs | hs
    · exact hown.trans (hp (hs ▸ e))
    · rw [hs] at e; cases e
  · rcases hslot with hs | hs
    · exact hown.trans (hr (hs ▸ e))
    · rw [hs] at e; cases e
  · obtain rfl := hn hm
    rcases g with ⟨_, _, _, _⟩
    simp only [Flow.reset, Flow.mk.injEq] at *
    exact ⟨hown, by simpa using hpeer, by simpa using hslot, by simpa using htimer⟩

theorem flowFits_of_eq {k : Line} (hf : k.flow = l.flow) (hs : k.set = l.set) (h : l.flowFits) : k.flowFits := by
  unfold Line.flowFits
  rw [hf, hs]
  exact h

theorem OnlyRx.flowFits {k : Line} (e : OnlyRx l k) (h : l.flowFits) : k.flowFits := flowFits_of_eq e.flow e.set h

theorem OnlyTx.flowFits {k : Line} (e : OnlyTx l k) (h : l.flowFits) : k.flowFits := flowFits_of_eq e.flow e.set h

theorem SettleKeeps.flowFits {k : Line} (e : SettleKeeps l k) (h : l.flowFits) : k.flowFits := by
  unfold Line.flowFits
  rw [e.set]
  exact h.clears e.ownPaused (.inl e.peerPaused) e.flowSlot e.flowTimer

/-- With an active flow logic a line has flow mode INBAND (R98). -/
theorem flowActive_inband (h : l.flowActive = true) : l.set.flowMode = .inband := by
  simp only [Line.flowActive, Bool.and_eq_true, decide_eq_true_eq] at h
  exact h.1

theorem fits_inband {f : Flow} (hp : f.slot = some .pause → f.ownPaused = true)
    (hr : f.slot = some .resume → f.ownPaused = false) (hm : l.set.flowMode = .inband) : f.fits l.set.flowMode :=
  ⟨hp, hr, fun h => by rw [hm] at h; cases h⟩

theorem flowFits_flowRise (h : l.flowFits) : l.flowRise.flowFits := by
  unfold Line.flowRise
  split
  next ha =>
    have hm := flowActive_inband ha.1
    split
    · exact fits_inband (l := l) (by simp) (by simp) hm
    · exact fits_inband (l := l) (by simp) (by simp) hm
    · exact h
  · exact h

theorem flowFits_flowFall (h : l.flowFits) : l.flowFall.flowFits := by
  unfold Line.flowFall
  split
  next ha =>
    have hm := flowActive_inband ha.1
    split
    · exact fits_inband (l := l) (by simp) (by simp) hm
    · exact fits_inband (l := l) (by simp) (by simp) hm
    · exact h
  · exact h

theorem flowFits_join (e : Bool → FifoEntry) (h : l.flowFits) : (l.join e).flowFits := by
  unfold Line.join
  exact flowFits_flowRise h

theorem flowFits_joinChar (v : Byte) (pe fe : Bool) (h : l.flowFits) : (l.joinChar v pe fe).flowFits :=
  flowFits_join _ h

theorem flowFits_keepTrialPair (v w : Byte) (h : l.flowFits) : (l.keepTrialPair v w).flowFits :=
  (gapRestart_onlyRx _).flowFits (flowFits_joinChar _ _ _ (flowFits_joinChar _ _ _ h))

theorem flowFits_appendEvent (c : Completion) (h : l.flowFits) : (l.appendEvent c).flowFits := by
  obtain ⟨_, _, _, hf, hs, _⟩ := appendEvent_keeps l c
  exact flowFits_of_eq hf hs h

theorem flowFits_abort (i : LineNo) (time : Word) (h : l.flowFits) : (l.abort i time).flowFits :=
  (abortCurrent_onlyTx _ i time).flowFits (h.clears rfl (.inl rfl) (.inr rfl) (.inr rfl))

theorem flowFits_failDiscovery (i : LineNo) (time : Word) (r : FailReason) (h : l.flowFits) :
    (l.failDiscovery i time r).flowFits :=
  flowFits_abort (l := { l with
    state := .closing
    close := { l.close with mode := some .immediate, failure := some (r, l.disc.attempts) } }) i time h

theorem flowFits_failAttempt (i : LineNo) (time : Word) (h : l.flowFits) : (l.failAttempt i time).flowFits := by
  unfold Line.failAttempt
  dsimp only
  split
  · exact flowFits_failDiscovery i time .attempts h
  · exact h

theorem flowFits_openWith (r : List Byte) : (l.openWith r).flowFits := by
  unfold Line.openWith
  dsimp only
  split <;> exact fits_reset _

theorem modifySettings_flowMode (r : List Byte) (t : Settings) : (modifySettings r t).flowMode = t.flowMode := rfl

theorem flowFits_modify (r : List Byte) (h : l.flowFits) : (l.modify r).flowFits := by
  unfold Line.modify
  dsimp only
  have hk : Line.flowFits { l with
      set := modifySettings r l.set
      rx := { l.rx with
        gapTimer := if recBit r 4 0 ∧ (modifySettings r l.set).gap = 0 then none else l.rx.gapTimer }
      flow := { l.flow with
        timer := if recBit r 4 4 ∧ (modifySettings r l.set).pauseLimit = 0 then none else l.flow.timer } } := by
    refine Flow.fits.clears (f := l.flow) h rfl (.inl rfl) (.inl rfl) ?_
    dsimp only
    split
    · exact .inr rfl
    · exact .inl rfl
  split
  · exact flowFits_flowRise hk
  · exact flowFits_flowFall hk

theorem flowFits_rediscover (i : LineNo) (time : Word) (h : l.flowFits) : (l.rediscover i time).flowFits := by
  unfold Line.rediscover
  dsimp only
  have hclose := (closeBuffer_onlyRx { l.discardFifo with rx := { l.discardFifo.rx with hold := [] } } i time
    .rateChange none).flowFits h
  exact ((chooseOutput_keeps _).flowFits (flowFits_flowFall hclose)).clears rfl (.inr rfl) (.inl rfl) (.inr rfl)

theorem flowFits_flushRx (i : LineNo) (time : Word) (h : l.flowFits) : (l.flushRx i time).flowFits := by
  unfold Line.flushRx
  dsimp only
  split
  · split <;> exact h
  · refine flowFits_flowFall ?_
    split
    · exact ((releaseHold_onlyRx l.discardFifo).trans (closeBuffer_onlyRx _ _ _ _ _)).flowFits h
    · exact h

theorem flowFits_takeClose (i : LineNo) (time : Word) (m : CloseMode) (tag : Half) (limit n : Nat) (h : l.flowFits) :
    (l.takeClose i time m tag limit n).flowFits := by
  unfold Line.takeClose
  cases m with
  | graceful => exact h
  | immediate =>
    exact flowFits_abort (l := { l with
      rx := { l.rx with asm := .idle, gapTimer := none }
      disc := { Discovery.reset with timer := none, window := none, measuring := false }
      state := .closing, long := .closeLine .immediate tag
      close := { CloseSide.reset with mode := some .immediate } }) i time h

theorem flowFits_overtake (i : LineNo) (time : Word) (g tag : Half) (h : l.flowFits) :
    (l.overtake i time g tag).flowFits := by
  unfold Line.overtake
  dsimp only
  split
  · exact flowFits_abort (l := { l with
      long := .twoCloses g tag, close := { l.close with mode := some .immediate } }) i time h
  · exact h

theorem flowFits_stopLine (i : LineNo) (time : Word) (h : l.flowFits) : (l.stopLine i time).flowFits := by
  unfold Line.stopLine
  split
  · exact h
  · split
    · exact flowFits_abort i time h
    · exact h
  · exact flowFits_abort (l := { l with
      state := .closing, close := { l.close with mode := some .immediate } }) i time h

/-- A flow character is diverted with flow mode INBAND alone (R24). -/
theorem divert_inband {c : Received} {f : FlowChar} (h : l.divert c = some f) : l.set.flowMode = .inband := by
  unfold Line.divert at h
  split at h
  next hc => exact hc.1
  · cases h

theorem flowFits_openChar (c : Received) (h : l.flowFits) : (l.openChar c).flowFits := by
  have hg := (gapRestart_onlyRx l).flowFits h
  unfold Line.openChar
  dsimp only
  split
  next f hd =>
    have hm : l.gapRestart.set.flowMode = .inband := (gapRestart_onlyRx l).set ▸ divert_inband hd
    unfold Line.peerFlow
    split
    · exact fits_inband (l := l.gapRestart) hg.1 hg.2.1 hm
    · split
      · exact fits_inband (l := l.gapRestart) hg.1 hg.2.1 hm
      · exact hg
  · split
    · exact hg
    · exact flowFits_joinChar _ _ _ hg

theorem flowFits_succeed (i : LineNo) (time : Word) (t : List RateEntry) (v w : Byte) :
    (l.succeed i time t v w).flowFits := by
  unfold Line.succeed
  dsimp only
  refine flowFits_appendEvent _ ?_
  split
  · exact flowFits_keepTrialPair _ _ (fits_reset _)
  · exact fits_reset _

theorem flowFits_trialChar (i : LineNo) (time : Word) (t : List RateEntry) (c : Received) (h : l.flowFits) :
    (l.trialChar i time t c).flowFits := by
  unfold Line.trialChar
  dsimp only
  repeat' split
  · exact flowFits_failAttempt i time h
  · exact h
  · exact flowFits_failAttempt i time h
  · exact flowFits_succeed i time t _ _

theorem flowFits_openBreak (h : l.flowFits) : l.openBreak.flowFits := by
  unfold Line.openBreak
  dsimp only
  split
  · exact h
  · exact flowFits_join _ h

/-- A line that has counted a low interval of `n` ticks (R41). -/
def Line.countInterval (l : Line) (n : Nat) : Line :=
  { l with disc := { l.disc with
      measuring := false
      intervals := l.disc.intervals + 1
      shortest := some (match l.disc.shortest with
        | none => n
        | some m => min m n) } }

theorem takeInterval_eq (l : Line) (i : LineNo) (time : Word) (t : List RateEntry) (n : Nat) :
    l.takeInterval i time t n =
      if n < 16 ∨ 65535 < n then { l with disc := { l.disc with measuring := false } }
      else if l.set.seekWindow ≤ l.disc.intervals + 1 then (l.countInterval n).evaluateWindow i time t
      else l.countInterval n := rfl

theorem flowFits_evaluateWindow (i : LineNo) (time : Word) (t : List RateEntry) (h : l.flowFits) :
    (l.evaluateWindow i time t).flowFits := by
  unfold Line.evaluateWindow
  split
  · exact h
  · exact flowFits_failAttempt i time h

theorem flowFits_takeInterval (i : LineNo) (time : Word) (t : List RateEntry) (n : Nat) (h : l.flowFits) :
    (l.takeInterval i time t n).flowFits := by
  rw [takeInterval_eq]
  repeat' split
  · exact h
  · exact flowFits_evaluateWindow (l := l.countInterval n) i time t h
  · exact h

theorem flowFits_gapExpire (h : l.flowFits) : l.gapExpire.flowFits := by
  unfold Line.gapExpire
  dsimp only
  split
  · exact flowFits_join _ h
  · exact h

theorem takeMarker_flow_set (l : Line) (gap : Bool) (i : LineNo) (time : Word) (loss : Bool) :
    (l.takeMarker gap i time loss).flow = l.flow ∧ (l.takeMarker gap i time loss).set = l.set := by
  have hclose : ∀ reason, OnlyRx l ((l.releaseHold.noteLoss loss).closeBuffer i time reason none) := fun _ =>
    (releaseHold_onlyRx l).trans ((noteLoss_onlyRx _ _).trans (closeBuffer_onlyRx _ _ _ _ _))
  unfold Line.takeMarker Line.takeGap Line.takeBreak
  dsimp only
  repeat' split
  · exact ⟨(hclose _).flow, (hclose _).set⟩
  · exact ⟨(carryLoss_onlyRx _ _).flow, (carryLoss_onlyRx _ _).set⟩
  · exact ⟨(hclose _).flow, (hclose _).set⟩
  · obtain ⟨_, _, _, hf, hs, _⟩ := appendEvent_keeps l (l.event time (.breakIdle i))
    exact ⟨(carryLoss_onlyRx _ _).flow.trans hf, (carryLoss_onlyRx _ _).set.trans hs⟩

theorem dataSent_flow_set (l : Line) (i : LineNo) (time : Word) :
    (l.dataSent i time).flow = l.flow ∧ (l.dataSent i time).set = l.set := by
  unfold Line.dataSent
  dsimp only
  repeat' split
  · exact ⟨(endRecord_onlyTx _ _ _ _).flow, (endRecord_onlyTx _ _ _ _).set⟩
  · exact ⟨rfl, rfl⟩
  · exact ⟨(endRecord_onlyTx _ _ _ _).flow, (endRecord_onlyTx _ _ _ _).set⟩
  · exact ⟨rfl, rfl⟩
  · exact ⟨rfl, rfl⟩

theorem flowFits_lineMove (m : LineMove s i l) (h : (s.line i).flowFits) : l.flowFits := by
  cases m with
  | settle => exact h
  | openLine r _ _ _ => exact flowFits_openWith r
  | modify r _ => exact flowFits_modify r h
  | setDelims r _ _ => exact (setDelims_onlyRx _ r).flowFits h
  | rediscover _ _ _ => exact flowFits_rediscover i _ h
  | takeFlush tag n _ => exact OnlyTx.flowFits (flushCurrent_onlyTx _ i _) h
  | flushRx _ => exact flowFits_flushRx i _ h
  | takeClose m tag lim n _ => exact flowFits_takeClose i _ m tag lim n h
  | overtake g tag _ => exact flowFits_overtake i _ g tag h
  | openChar c _ => exact flowFits_openChar c h
  | trialChar c _ => exact flowFits_trialChar i _ _ c h
  | openBreak _ => exact flowFits_openBreak h
  | failAttempt _ => exact flowFits_failAttempt i _ h
  | takeInterval n _ => exact flowFits_takeInterval i _ _ n h
  | gapExpire _ => exact flowFits_gapExpire h
  | failDiscovery r _ => exact flowFits_failDiscovery i _ r h
  | takeChar v pe fe loss _ _ =>
    exact (takeChar_onlyRx _ _ _ _ _ _ _).flowFits (flowFits_flowFall (l := (s.line i).popFifo) h)
  | takeMarker gap loss _ =>
    obtain ⟨hf, hs⟩ := takeMarker_flow_set (s.line i).popFifo.flowFall gap i s.time loss
    exact flowFits_of_eq hf hs (flowFits_flowFall (l := (s.line i).popFifo) h)
  | answerBuffer _ _ => exact (answerBuffer_onlyRx _ _ _).flowFits h
  | takeChunk n ok _ => exact (takeChunk_onlyRx _ _ _ _ _).flowFits h
  | dataSent bits _ =>
    obtain ⟨hf, hs⟩ := dataSent_flow_set (s.line i) i s.time
    exact flowFits_of_eq hf hs h
  | flowSent c bits _ => exact (flowSent_onlyTx _ _ _).flowFits h
  | endBreak _ => exact OnlyTx.flowFits (OnlyTx.trans (k := (s.line i).stopBreak) rfl (endRecord_onlyTx _ _ _ _)) h
  | pauseExpire _ => exact flowFits_appendEvent _ (h.clears rfl (.inr rfl) (.inl rfl) (.inr rfl))
  | cutDrain _ => exact flowFits_abort i _ h
  | event c => exact flowFits_appendEvent c h

theorem flowFits_quietMove (m : QuietMove s i l) (h : (s.line i).flowFits) : l.flowFits := by
  cases m with
  | breakEnds _ => exact (gapRestart_onlyRx _).flowFits h
  | finishClose _ _ => exact fits_reset _
  | clearCounters => exact h
  | measure _ => exact h
  | assembler _ => exact h
  | giveUpRx _ _ => exact h
  | giveUpTx _ => exact h
  | giveUpEvent => exact h

/-- A timer stopped at reset stays stopped. -/
theorem flowFits_tick (h : l.flowFits) : l.tick.flowFits := by
  obtain ⟨hp, hr, hn⟩ := h
  refine ⟨hp, hr, fun hm => ?_⟩
  have hf : l.flow = Flow.reset := hn hm
  simp [Line.tick, hf, Flow.reset, tickTimer]

theorem flowFits_change (h : (s.line i).flowFits) (m : LineChange s t i l) : l.flowFits := by
  cases m with
  | same => exact h
  | quiet _ m => exact flowFits_quietMove m h
  | takes _ _ _ m => exact (settled_keeps _ _ _ _).flowFits (flowFits_lineMove m h)
  | dataRead n x time q _ _ => exact (settled_keeps _ _ _ _).flowFits ((takeRead_onlyTx _ _ _ _).flowFits h)
  | deliverRx b time q _ _ _ _ => exact (settled_keeps _ _ _ _).flowFits h
  | answerTx tag st time q _ _ _ => exact (settled_keeps _ _ _ _).flowFits h
  | acceptTx r ws time q _ _ _ => exact (settled_keeps _ _ _ _).flowFits ((acceptTx_onlyTx _ _ _ _ _).flowFits h)
  | stopLine time => exact flowFits_stopLine i time h
  | tick => exact flowFits_tick h
  | fresh => exact fits_reset _
  | expireStop =>
    unfold Line.expireStop
    split
    · exact h
    · exact fits_reset _

/-- Settles O56: each change of a line keeps a CLOSED line empty, and the flow logic moves among its combinations. -/
theorem stepKeepsClosedLinesAndFlow : Obligations.StepKeepsClosedLinesAndFlow :=
  ⟨keptByEveryStep_of_changes (P := fun _ l => l.closedEmpty) (fun _ _ => ⟨rfl, rfl, rfl, rfl, rfl⟩)
      fun _ _ _ _ => closedEmpty_change,
    keptByEveryStep_of_changes (P := fun _ l => l.flowFits) (fun _ => fits_reset _) fun _ _ _ _ => flowFits_change⟩

end Sys2Proof.Machine
end

section
/-! PROOF. The matcher of a started buffer (R68 to R72): the longest suffix that is a delimiter, the longest that is a proper
beginning of one, and what each character then stores, drops and holds. -/

namespace Sys2Proof.Machine

/-! ### The longest suffix with a property -/

/-- The first tail with a property is the longest suffix with it. -/
theorem find_tails_some {α : Type} {p : List α → Bool} : ∀ {w u : List α}, w.tails.find? p = some u →
    u <:+ w ∧ p u = true ∧ ∀ v, v <:+ w → p v = true → v.length ≤ u.length := by
  intro w
  induction w with
  | nil =>
    intro u h
    have hu : u = [] := by simpa using List.mem_of_find?_eq_some h
    subst hu
    exact ⟨List.suffix_refl _, List.find?_some h, fun v hv _ => hv.length_le⟩
  | cons x xs ih =>
    intro u h
    rw [List.tails_cons, List.find?_cons] at h
    cases hp : p (x :: xs) with
    | true =>
      rw [hp] at h
      cases h
      exact ⟨List.suffix_refl _, hp, fun v hv _ => hv.length_le⟩
    | false =>
      rw [hp] at h
      obtain ⟨hu, hpu, hmax⟩ := ih h
      refine ⟨hu.trans (List.suffix_cons x xs), hpu, fun v hv hpv => ?_⟩
      rcases List.suffix_cons_iff.1 hv with rfl | hv'
      · rw [hp] at hpv; cases hpv
      · exact hmax v hv' hpv

/-- Without such a tail no suffix has the property. -/
theorem find_tails_none {α : Type} {p : List α → Bool} {w : List α} (h : w.tails.find? p = none) {v : List α}
    (hv : v <:+ w) : p v = false := by
  have := List.find?_eq_none.1 h v (List.mem_tails v w |>.2 hv)
  simpa using this

/-- Two suffixes of one length are one. -/
theorem suffix_unique {α : Type} {u v w : List α} (hu : u <:+ w) (hv : v <:+ w) (h : u.length = v.length) : u = v :=
  (List.suffix_of_suffix_length_le hu hv h.le).eq_of_length h

theorem take_append_suffix {α : Type} {u w : List α} (h : u <:+ w) : w.take (w.length - u.length) ++ u = w := by
  obtain ⟨t, rfl⟩ := h
  simp

/-! ### The delimiters that end the bytes held -/

variable {ds : List Delim} {w : List Byte}

/-- A suffix that is the whole of a delimiter, or a proper beginning of one. -/
theorem wholeMatch_eq (ds : List Delim) (w : List Byte) :
    wholeMatch ds w = w.tails.find? fun u => decide (u ≠ []) && ds.any fun d => decide (d.bytes = u) := by
  unfold wholeMatch
  congr 1
  funext u
  simp [List.any_eq]

theorem newHold_eq (ds : List Delim) (w : List Byte) : newHold ds w =
    (w.tails.find? fun u => ds.any fun d => decide (u.length < d.bytes.length ∧ u <+: d.bytes)).getD [] := by
  unfold newHold
  congr 2
  funext u
  simp

/-- The longest delimiter at the end of the bytes acts (R68). -/
theorem wholeMatch_of_longest {d : Delim} (hd : d ∈ ds) (hne : d.bytes ≠ []) (hw : d.bytes <:+ w)
    (hmax : ∀ d' ∈ ds, d'.bytes <:+ w → d'.bytes.length ≤ d.bytes.length) : wholeMatch ds w = some d.bytes := by
  rw [wholeMatch_eq]
  have hp : (decide (d.bytes ≠ []) && ds.any fun d' => decide (d'.bytes = d.bytes)) = true := by
    simp only [Bool.and_eq_true, decide_eq_true_eq, List.any_eq_true]
    exact ⟨hne, d, hd, rfl⟩
  cases h : w.tails.find? (fun u => decide (u ≠ []) && ds.any fun d => decide (d.bytes = u)) with
  | none =>
    have := find_tails_none h hw
    rw [hp] at this
    cases this
  | some u =>
    obtain ⟨hu, hpu, hlong⟩ := find_tails_some h
    simp only [Bool.and_eq_true, decide_eq_true_eq, List.any_eq_true] at hpu
    obtain ⟨_, d', hd', rfl⟩ := hpu
    exact congrArg some (suffix_unique hu hw (le_antisymm (hmax d' hd' hu) (hlong _ hw hp)))

theorem wholeMatch_of_none (h : ∀ d ∈ ds, ¬ d.bytes <:+ w) : wholeMatch ds w = none := by
  rw [wholeMatch_eq]
  refine List.find?_eq_none.2 fun u hu => ?_
  simp only [Bool.and_eq_true, decide_eq_true_eq, List.any_eq_true, not_and, not_exists]
  rintro _ d hd rfl
  exact h d hd ((List.mem_tails _ _).1 hu)

/-- A match is a delimiter that ends the bytes. -/
theorem wholeMatch_some {u : List Byte} (h : wholeMatch ds w = some u) : u <:+ w ∧ u ≠ [] ∧ ∃ d ∈ ds, d.bytes = u := by
  rw [wholeMatch_eq] at h
  obtain ⟨hu, hp, _⟩ := find_tails_some h
  simp only [Bool.and_eq_true, decide_eq_true_eq, List.any_eq_true] at hp
  exact ⟨hu, hp.1, hp.2⟩

/-- What is held is a suffix of the bytes, and nothing or a proper beginning of a delimiter (R68, R70). -/
theorem newHold_spec (ds : List Delim) (w : List Byte) : newHold ds w <:+ w ∧
    (newHold ds w = [] ∨ ∃ d ∈ ds, (newHold ds w).length < d.bytes.length ∧ newHold ds w <+: d.bytes) := by
  rw [newHold_eq]
  cases h : w.tails.find? (fun u => ds.any fun d => decide (u.length < d.bytes.length ∧ u <+: d.bytes)) with
  | none => exact ⟨List.nil_suffix, .inl rfl⟩
  | some u =>
    obtain ⟨hu, hp, _⟩ := find_tails_some h
    simp only [List.any_eq_true, decide_eq_true_eq] at hp
    exact ⟨hu, .inr hp⟩

theorem newHold_of_longest {h : List Byte} (hw : h <:+ w)
    (hh : h = [] ∨ ∃ d ∈ ds, h.length < d.bytes.length ∧ h <+: d.bytes)
    (hmax : ∀ h', h' <:+ w → (∃ d ∈ ds, h'.length < d.bytes.length ∧ h' <+: d.bytes) → h'.length ≤ h.length) :
    newHold ds w = h := by
  rw [newHold_eq]
  cases hf : w.tails.find? (fun u => ds.any fun d => decide (u.length < d.bytes.length ∧ u <+: d.bytes)) with
  | none =>
    rcases hh with rfl | hp
    · rfl
    · have := find_tails_none hf hw
      simp only [List.any_eq_false, decide_eq_true_eq] at this
      obtain ⟨d, hd, hpd⟩ := hp
      exact absurd hpd (this d hd)
  | some u =>
    obtain ⟨hu, hp, hlong⟩ := find_tails_some hf
    simp only [List.any_eq_true, decide_eq_true_eq] at hp hlong
    refine suffix_unique hu hw (le_antisymm (hmax u hu hp) ?_)
    rcases hh with rfl | hp'
    · simp
    · exact hlong h hw hp'

/-- The first delimiter with given bytes, where they have one index. -/
theorem delimIndex_of_unique {k : Nat} {d : Delim} (hk : ds[k]? = some d)
    (huniq : ∀ (j : Nat) (d' : Delim), ds[j]? = some d' → d'.bytes = d.bytes → j = k) : delimIndex ds d.bytes = k := by
  have hlt : k < ds.length := (List.getElem?_eq_some_iff.1 hk).1
  have hex : delimIndex ds d.bytes < ds.length :=
    List.findIdx_lt_length_of_exists ⟨d, List.mem_of_getElem? hk, by simp⟩
  refine huniq _ ds[delimIndex ds d.bytes] (List.getElem?_eq_getElem hex) ?_
  have hfound := List.findIdx_getElem (xs := ds) (p := fun d' : Delim => decide (d'.bytes = d.bytes)) (w := hex)
  exact of_decide_eq_true hfound

theorem delimAction_of_get {k : Nat} {d : Delim} (hk : ds[k]? = some d) : delimAction ds k = d.action := by
  simp [delimAction, hk]

/-! ### The matcher over a started buffer -/

variable {l : Line} {b : RxBuf} {rest : List RxBuf} {n : Nat} {e : ErrorSet} {f : Option Nat}

/-- Storing bytes and taking a new hold. -/
theorem store_hold_started (hb : l.rx.bufs = b :: rest) (hc : b.cond = .started n e f) (bs h : List Byte) :
    ({ l.store bs with rx := { (l.store bs).rx with hold := h } } : Line) = l.storing b rest n bs e f h := by
  rw [store_started hb hc]
  rfl

/-- What a delimiter of index `k` and `m` bytes at the end of the bytes `w` does by its action (R69). -/
def Line.delimited (l : Line) (i : LineNo) (time : Word) (b : RxBuf) (rest : List RxBuf) (n : Nat) (w : List Byte)
    (e : ErrorSet) (f : Option Nat) (k m : Nat) : DelimAction → Line
  | .keepAndClose => l.closing i time b rest n w e f .delimiter (some k)
  | .dropAndClose => l.closing i time b rest n (w.take (w.length - m)) e f .delimiter (some k)
  | .drop => l.storing b rest n (w.take (w.length - m)) e f []

/-- The delimiter `u` at the end of the bytes acts (R69). -/
theorem matchChar_matched (hb : l.rx.bufs = b :: rest) (hc : b.cond = .started n e f) (i : LineNo) (time : Word)
    {v : Byte} {w u : List Byte} (hw : w = l.rx.hold ++ [v]) (hu : wholeMatch l.rx.delims w = some u) :
    l.matchChar i time v = l.delimited i time b rest n w e f (delimIndex l.rx.delims u) u.length
      (delimAction l.rx.delims (delimIndex l.rx.delims u)) := by
  subst hw
  unfold Line.matchChar
  simp only [hu, store_hold_started hb hc]
  cases delimAction l.rx.delims (delimIndex l.rx.delims u)
  · dsimp only [Line.delimited]
    rw [store_started (storing_bufs _ _) rfl, storing_storing, closeBuffer_started (storing_bufs _ _) rfl,
      storing_closing, List.append_nil, take_append_suffix (wholeMatch_some hu).1]
  · dsimp only [Line.delimited]
    rw [closeBuffer_started (storing_bufs _ _) rfl, storing_closing, List.append_nil]
  · rfl

/-- Without a delimiter the longest proper beginning of one is held, and a buffer that is full closes (R70). -/
theorem matchChar_unmatched (hb : l.rx.bufs = b :: rest) (hc : b.cond = .started n e f) (i : LineNo) (time : Word)
    {v : Byte} {w : List Byte} (hw : w = l.rx.hold ++ [v]) (hu : wholeMatch l.rx.delims w = none) :
    l.matchChar i time v =
      if n + w.length = b.len then l.closing i time b rest n w e f .full none
      else l.storing b rest n (w.take (w.length - (newHold l.rx.delims w).length)) e f (newHold l.rx.delims w) := by
  subst hw
  have hh := take_append_suffix (newHold_spec l.rx.delims (l.rx.hold ++ [v])).1
  have hlen : n + ((l.rx.hold ++ [v]).take ((l.rx.hold ++ [v]).length -
      (newHold l.rx.delims (l.rx.hold ++ [v])).length)).length + (newHold l.rx.delims (l.rx.hold ++ [v])).length =
      n + (l.rx.hold ++ [v]).length := by
    rw [Nat.add_assoc, ← List.length_append, hh]
  unfold Line.matchChar
  simp only [hu, store_hold_started hb hc]
  rw [stored_started (storing_bufs _ _) rfl, frontLength_started (storing_bufs _ _), hlen]
  split
  · rw [releaseHold_started (storing_bufs _ _) rfl, storing_storing, closeBuffer_started (storing_bufs _ _) rfl,
      storing_closing, List.append_nil]
    exact congrArg (fun x => l.closing i time b rest n x e f .full none) hh
  · rfl

/-- An errored character (R71). -/
theorem storeErrored_started (hb : l.rx.bufs = b :: rest) (hc : b.cond = .started n e f) (i : LineNo) (time : Word)
    {v : Byte} {w : List Byte} (hw : w = l.rx.hold ++ [v]) (pe fe : Bool) {x : ErrorSet × Option Nat}
    (hx : x = summaryWith e f { parity := pe, framing := fe, overrun := false } (n + l.rx.hold.length)) :
    l.storeErrored i time v pe fe =
      if n + w.length = b.len then l.closing i time b rest n w x.1 x.2 .full none
      else if l.set.closeOnError then l.closing i time b rest n w x.1 x.2 .error none
      else l.storing b rest n w x.1 x.2 [] := by
  subst hw hx
  have hadd : ((l.releaseHold.store [v]).addErrors { parity := pe, framing := fe, overrun := false }
      l.releaseHold.stored) = l.storing b rest n (l.rx.hold ++ [v])
        (summaryWith e f { parity := pe, framing := fe, overrun := false } (n + l.rx.hold.length)).1
        (summaryWith e f { parity := pe, framing := fe, overrun := false } (n + l.rx.hold.length)).2 [] := by
    rw [releaseHold_started hb hc, stored_started (storing_bufs _ _) rfl, store_started (storing_bufs _ _) rfl,
      storing_storing, addErrors_started (storing_bufs _ _) rfl, storing_storing, List.append_nil]
    rfl
  unfold Line.storeErrored
  simp only [hadd]
  rw [stored_started (storing_bufs _ _) rfl, frontLength_started (storing_bufs _ _)]
  simp only [closeBuffer_started (storing_bufs _ _) rfl, storing_closing, List.append_nil]
  rfl

/-- A loss releases the hold and joins OVERRUN at the stored count (R59, R72). -/
theorem noteLoss_started (hb : l.rx.bufs = b :: rest) (hc : b.cond = .started n e f) {x : ErrorSet × Option Nat}
    (hx : x = summaryWith e f { parity := false, framing := false, overrun := true } (n + l.rx.hold.length)) :
    l.noteLoss true = l.storing b rest n l.rx.hold x.1 x.2 [] := by
  subst hx
  simp only [Line.noteLoss, if_true]
  rw [releaseHold_started hb hc, stored_started (storing_bufs _ _) rfl, addErrors_started (storing_bufs _ _) rfl,
    storing_storing, List.append_nil]
  rfl

/-- Settles O41: the longest match and the longest hold are those of `List.tails`, and each outcome is a store or a close. -/
theorem matcherFollowsItsTable : Obligations.MatcherFollowsItsTable := by
  intro l i time v b rest n e f hb hc hds w hw
  refine ⟨fun k d hk hd huniq hmax => ?_, fun hnone h hh hprefix hmax => ?_, fun pe fe x hx => ?_, fun x hx => ⟨?_, rfl⟩⟩
  · have hmem := List.mem_of_getElem? hk
    rw [matchChar_matched hb hc i time hw (wholeMatch_of_longest hmem (hds d hmem) hd hmax),
      delimIndex_of_unique hk huniq, delimAction_of_get hk]
    cases d.action <;> rfl
  · rw [matchChar_unmatched hb hc i time hw (wholeMatch_of_none hnone), newHold_of_longest hh hprefix hmax]
  · exact storeErrored_started hb hc i time hw pe fe hx
  · exact noteLoss_started hb hc hx

end Sys2Proof.Machine
end

section
/-! PROOF. The buffer side of a line (R54, R56, R63 to R65, R70, R77): the buffer list, the delimiter table, the match hold and
the write chunk agree, and the chunk keeps within its places. -/

namespace Sys2Proof.Machine

variable {s : State} {i : LineNo} {l k : Line} {b : RxBuf} {rest : List RxBuf} {n : Nat} {e : ErrorSet} {f : Option Nat}
  {x y : Nat}

/-! ### The buffer side between two settlings -/

/-- The buffer side agrees, with at most `x` bytes in chunk and hold beside a chunk write in flight, and at most `y` without
one. -/
structure Line.bufferFits (l : Line) (x y : Nat) : Prop where
  delims : ∀ d ∈ l.rx.delims, 1 ≤ d.bytes.length ∧ d.bytes.length ≤ 4
  hold : l.rx.hold = [] ∨ ∃ d ∈ l.rx.delims, l.rx.hold.length < d.bytes.length ∧ l.rx.hold <+: d.bytes
  lengths : ∀ b ∈ l.rx.bufs, b.isInvalid = false → 1 ≤ b.len
  tail : ∀ b ∈ l.rx.bufs.tail, ¬ b.isStarted
  started : l.hasStarted = true → l.stored + l.rx.hold.length < l.frontLength ∧ l.rx.slot = none
  flight : l.rx.inFlight ≠ none → l.rx.chunk.length + l.rx.hold.length ≤ x
  room : l.rx.inFlight = none → l.rx.chunk.length + l.rx.hold.length ≤ y

/-- What `BufferSideAgrees` says of one line. -/
def Line.bufferAgrees (l : Line) : Prop :=
  (∀ d ∈ l.rx.delims, 1 ≤ d.bytes.length ∧ d.bytes.length ≤ 4) ∧
    (l.rx.hold = [] ∨ ∃ d ∈ l.rx.delims, l.rx.hold.length < d.bytes.length ∧ l.rx.hold <+: d.bytes) ∧
    (∀ b ∈ l.rx.bufs, b.isInvalid = false → 1 ≤ b.len) ∧
    (∀ b ∈ l.rx.bufs.tail, ¬ b.isStarted) ∧
    (l.hasStarted = true → l.stored + l.rx.hold.length < l.frontLength ∧ l.rx.slot = none) ∧
    (l.rx.inFlight ≠ none → l.rx.chunk.length + l.rx.hold.length ≤ 13) ∧
    (l.rx.inFlight = none → l.rx.chunk.length ≤ 15)

/-- The hold is at most 3 bytes (R65, R70). -/
theorem Line.bufferFits.hold_le (h : l.bufferFits x y) : l.rx.hold.length ≤ 3 := by
  rcases h.hold with e | ⟨d, hd, hlt, _⟩
  · simp [e]
  · have := (h.delims d hd).2
    omega

theorem Line.bufferFits.mono {x' y' : Nat} (h : l.bufferFits x y) (hx : x ≤ x') (hy : y ≤ y') : l.bufferFits x' y' :=
  { h with flight := fun e => (h.flight e).trans hx, room := fun e => (h.room e).trans hy }

theorem bufferFits_of_agrees (h : l.bufferAgrees) : l.bufferFits 13 18 := by
  obtain ⟨hd, hh, hl, ht, hs, hf, hr⟩ := h
  have h0 : l.bufferFits 13 (15 + l.rx.hold.length) := ⟨hd, hh, hl, ht, hs, hf, fun e => by have := hr e; omega⟩
  exact h0.mono le_rfl (by have := h0.hold_le; omega)

theorem bufferAgrees_of_fits (h : l.bufferFits 13 y) (hr : l.rx.inFlight = none → l.rx.chunk.length ≤ 15) :
    l.bufferAgrees := ⟨h.delims, h.hold, h.lengths, h.tail, h.started, h.flight, hr⟩

/-- The receive side `b` has the buffer side of `a`, or less of it, and its FIFO within its places if that of `a` is. -/
structure BufferShrinks (a b : RxSide) : Prop where
  delims : b.delims = a.delims ∨ (b.delims = [] ∧ b.hold = [])
  hold : b.hold = a.hold ∨ b.hold = []
  bufs : b.bufs = a.bufs ∨ b.bufs = []
  chunk : b.chunk = a.chunk
  inFlight : b.inFlight = a.inFlight
  slot : b.slot = a.slot ∨ b.slot = none
  fifo : a.fifo.length ≤ 32 → b.fifo.length ≤ 32

theorem BufferShrinks.of_eq {a b : RxSide} (h : b = a) : BufferShrinks a b := by
  constructor <;> simp [h]

theorem BufferShrinks.refl (a : RxSide) : BufferShrinks a a := .of_eq rfl

theorem BufferShrinks.trans {a b c : RxSide} (h : BufferShrinks a b) (h' : BufferShrinks b c) : BufferShrinks a c where
  delims := by
    rcases h'.delims with e | e
    · rcases h.delims with e' | ⟨e', hh⟩
      · exact .inl (e.trans e')
      · exact .inr ⟨e.trans e', h'.hold.elim (fun hm => hm.trans hh) id⟩
    · exact .inr e
  hold := stays_or_empties h.hold h'.hold
  bufs := stays_or_empties h.bufs h'.bufs
  chunk := h'.chunk.trans h.chunk
  inFlight := h'.inFlight.trans h.inFlight
  slot := stays_or_empties h.slot h'.slot
  fifo := fun e => h'.fifo (h.fifo e)

theorem hasStarted_congr (h : k.rx.bufs = l.rx.bufs) :
    k.hasStarted = l.hasStarted ∧ k.stored = l.stored ∧ k.frontLength = l.frontLength := by
  simp [Line.hasStarted, Line.stored, Line.frontLength, h]

theorem hasStarted_nil (h : l.rx.bufs = []) : l.hasStarted = false := by simp [Line.hasStarted, h]

theorem Line.bufferFits.shrinks (h : l.bufferFits x y) (hk : BufferShrinks l.rx k.rx) : k.bufferFits x y := by
  have hlen : k.rx.hold.length ≤ l.rx.hold.length := by
    rcases hk.hold with e | e <;> simp [e]
  refine ⟨?_, ?_, ?_, ?_, fun hst => ?_, fun e => ?_, fun e => ?_⟩
  · rcases hk.delims with e | ⟨e, _⟩
    · rw [e]; exact h.delims
    · simp [e]
  · rcases hk.delims with e | ⟨_, e⟩
    · rcases hk.hold with e' | e'
      · rw [e, e']; exact h.hold
      · exact .inl e'
    · exact .inl e
  · rcases hk.bufs with e | e
    · rw [e]; exact h.lengths
    · simp [e]
  · rcases hk.bufs with e | e
    · rw [e]; exact h.tail
    · simp [e]
  · rcases hk.bufs with e | e
    · obtain ⟨hs, hn, hf⟩ := hasStarted_congr e
      obtain ⟨hlt, hslot⟩ := h.started (hs ▸ hst)
      refine ⟨by omega, hk.slot.elim (fun e => e.trans hslot) id⟩
    · rw [hasStarted_nil e] at hst; cases hst
  · have := h.flight (hk.inFlight ▸ e)
    rw [hk.chunk]
    omega
  · have := h.room (hk.inFlight ▸ e)
    rw [hk.chunk]
    omega

theorem bufferAgrees_shrinks (h : l.bufferAgrees) (hk : BufferShrinks l.rx k.rx) : k.bufferAgrees := by
  refine bufferAgrees_of_fits ((bufferFits_of_agrees h).shrinks hk) fun e => ?_
  rw [hk.chunk]
  exact h.2.2.2.2.2.2 (hk.inFlight ▸ e)

/-! ### A started buffer -/

theorem not_isStarted_waiting (b : RxBuf) (h : b.cond = .waiting) : ¬ b.isStarted := by
  rintro ⟨n, e, f, hs⟩
  rw [h] at hs
  cases hs

theorem hasStarted_iff : l.hasStarted = true ↔ ∃ b rest n e f, l.rx.bufs = b :: rest ∧ b.cond = .started n e f := by
  cases hb : l.rx.bufs with
  | nil => simp [Line.hasStarted, hb]
  | cons b rest =>
    cases hc : b.cond <;> simp [Line.hasStarted, hb, hc]

/-- Behind a front record that leaves, no record is started. -/
theorem Line.bufferFits.rest_not_started (h : l.bufferFits x y) (hb : l.rx.bufs = b :: rest) (hk : k.rx.bufs = rest) :
    k.hasStarted = false := by
  rw [Bool.eq_false_iff]
  intro hs
  obtain ⟨b', rest', n, e, f, hb', hc⟩ := hasStarted_iff.1 hs
  exact h.tail b' (by rw [hb, List.tail_cons, ← hk, hb']; exact List.mem_cons_self ..) ⟨n, e, f, hc⟩

theorem Line.bufferFits.of_started (h : l.bufferFits x y) (hb : l.rx.bufs = b :: rest) (hc : b.cond = .started n e f) :
    n + l.rx.hold.length < b.len ∧ l.rx.slot = none := by
  have := h.started (hasStarted_of_started hb hc)
  rwa [stored_started hb hc, frontLength_started hb] at this

/-- A store into the started buffer that leaves it unfilled. -/
theorem bufferFits_storing {m : Nat} {bs g : List Byte} {e' : ErrorSet} {f' : Option Nat} (h : l.bufferFits x y)
    (hb : l.rx.bufs = b :: rest) (hc : b.cond = .started n e f)
    (hg : g = [] ∨ ∃ d ∈ l.rx.delims, g.length < d.bytes.length ∧ g <+: d.bytes)
    (hlen : n + bs.length + g.length < b.len) (hroom : bs.length + g.length ≤ l.rx.hold.length + m) :
    (l.storing b rest n bs e' f' g).bufferFits (x + m) (y + m) := by
  have hmem := hb ▸ h.lengths
  have htail := hb ▸ h.tail
  have hslot := (h.of_started hb hc).2
  refine ⟨h.delims, hg, ?_, htail, fun _ => ⟨?_, hslot⟩, fun he => ?_, fun he => ?_⟩
  · intro b' hb' hv
    rcases List.mem_cons.1 hb' with rfl | hr
    · exact hmem b (List.mem_cons_self ..) (by simp [RxBuf.isInvalid, hc])
    · exact hmem b' (List.mem_cons_of_mem _ hr) hv
  · rw [stored_started (storing_bufs _ _) rfl, frontLength_started (storing_bufs _ _)]
    exact hlen
  · have := h.flight he
    simp only [Line.storing, List.length_append]
    omega
  · have := h.room he
    simp only [Line.storing, List.length_append]
    omega

/-- A close of the started buffer. -/
theorem bufferFits_closing {m : Nat} {bs : List Byte} {e' : ErrorSet} {f' : Option Nat} (h : l.bufferFits x y)
    (hb : l.rx.bufs = b :: rest) (time : Word) (reason : RxReason) (d : Option Nat)
    (hroom : bs.length ≤ l.rx.hold.length + m) :
    (l.closing i time b rest n bs e' f' reason d).bufferFits (x + m) (y + m) := by
  have hmem := hb ▸ h.lengths
  have htail := hb ▸ h.tail
  refine ⟨h.delims, .inl rfl, fun b' hb' => hmem b' (List.mem_cons_of_mem _ hb'),
    fun b' hb' => htail b' (List.mem_of_mem_tail hb'), fun hs => ?_, fun he => ?_, fun he => ?_⟩
  · rw [h.rest_not_started hb rfl] at hs; cases hs
  · have := h.flight he
    simp only [Line.closing, List.length_append, List.length_nil]
    omega
  · have := h.room he
    simp only [Line.closing, List.length_append, List.length_nil]
    omega

/-- Releasing the hold of a started buffer and closing it. -/
theorem releaseHold_closeBuffer_started (hb : l.rx.bufs = b :: rest) (hc : b.cond = .started n e f) (i : LineNo)
    (time : Word) (reason : RxReason) (d : Option Nat) : l.releaseHold.closeBuffer i time reason d =
      l.closing i time b rest n l.rx.hold e f reason d := by
  rw [releaseHold_started hb hc, closeBuffer_started (storing_bufs _ _) rfl, storing_closing, List.append_nil]

theorem bufferFits_releaseHold_closeBuffer (h : l.bufferFits x y) (hs : l.hasStarted = true) (i : LineNo) (time : Word)
    (reason : RxReason) (d : Option Nat) : (l.releaseHold.closeBuffer i time reason d).bufferFits x y := by
  obtain ⟨b, rest, n, e, f, hb, hc⟩ := hasStarted_iff.1 hs
  rw [releaseHold_closeBuffer_started hb hc]
  exact bufferFits_closing (m := 0) h hb time reason d le_rfl

/-- Without a started buffer nothing is stored, released into one or closed. -/
theorem store_of_not_started (hs : l.hasStarted = false) (bs : List Byte) : l.store bs = l := by
  cases hb : l.rx.bufs with
  | nil => simp [Line.store, hb]
  | cons b rest => cases hc : b.cond <;> simp_all [Line.store, Line.hasStarted]

theorem closeBuffer_of_not_started (hs : l.hasStarted = false) (i : LineNo) (time : Word) (reason : RxReason)
    (d : Option Nat) : l.closeBuffer i time reason d = l := by
  cases hb : l.rx.bufs with
  | nil => simp [Line.closeBuffer, hb]
  | cons b rest => cases hc : b.cond <;> simp_all [Line.closeBuffer, Line.hasStarted]

theorem bufferFits_closeBuffer (h : l.bufferFits x y) (i : LineNo) (time : Word) (reason : RxReason) (d : Option Nat) :
    (l.closeBuffer i time reason d).bufferFits x y := by
  cases hs : l.hasStarted with
  | false => rw [closeBuffer_of_not_started hs]; exact h
  | true =>
    obtain ⟨b, rest, n, e, f, hb, hc⟩ := hasStarted_iff.1 hs
    rw [closeBuffer_started hb hc]
    exact bufferFits_closing (m := 0) h hb time reason d (Nat.zero_le _)

/-- Releasing the hold leaves the same number of bytes in chunk and hold, or fewer. -/
theorem bufferFits_releaseHold (h : l.bufferFits x y) : l.releaseHold.bufferFits x y := by
  cases hs : l.hasStarted with
  | false =>
    have he : l.releaseHold = { l with rx := { l.rx with hold := [] } } := by
      rw [Line.releaseHold, store_of_not_started hs]
    rw [he]
    exact h.shrinks ⟨.inl rfl, .inr rfl, .inl rfl, rfl, rfl, .inl rfl, id⟩
  | true =>
    obtain ⟨b, rest, n, e, f, hb, hc⟩ := hasStarted_iff.1 hs
    rw [releaseHold_started hb hc]
    exact bufferFits_storing (m := 0) h hb hc (.inl rfl) (by simpa using (h.of_started hb hc).1) (by simp)

/-! ### The receive writer -/

theorem bufferFits_matchChar (h : l.bufferFits x y) (hb : l.rx.bufs = b :: rest) (hc : b.cond = .started n e f)
    (i : LineNo) (time : Word) (v : Byte) : (l.matchChar i time v).bufferFits (x + 1) (y + 1) := by
  have hlt := (h.of_started hb hc).1
  have hlen : (l.rx.hold ++ [v]).length = l.rx.hold.length + 1 := by simp
  generalize hw : l.rx.hold ++ [v] = w at hlen
  cases hu : wholeMatch l.rx.delims w with
  | none =>
    have hspec := newHold_spec l.rx.delims w
    have htotal := congrArg List.length (take_append_suffix hspec.1)
    rw [List.length_append] at htotal
    rw [matchChar_unmatched hb hc i time hw.symm hu]
    split
    · exact bufferFits_closing h hb time .full none (by omega)
    · exact bufferFits_storing h hb hc hspec.2 (by omega) (by omega)
  | some u =>
    obtain ⟨hsuf, hne, _⟩ := wholeMatch_some hu
    have hpos : 1 ≤ u.length := List.length_pos_iff.2 hne
    rw [matchChar_matched hb hc i time hw.symm hu]
    cases delimAction l.rx.delims (delimIndex l.rx.delims u)
    · exact bufferFits_closing h hb time .delimiter _ (by omega)
    · exact bufferFits_closing h hb time .delimiter _ (by rw [List.length_take]; omega)
    · exact bufferFits_storing h hb hc (.inl rfl) (by rw [List.length_take, List.length_nil]; omega)
        (by rw [List.length_take, List.length_nil]; omega)

theorem bufferFits_storeErrored (h : l.bufferFits x y) (hb : l.rx.bufs = b :: rest) (hc : b.cond = .started n e f)
    (i : LineNo) (time : Word) (v : Byte) (pe fe : Bool) :
    (l.storeErrored i time v pe fe).bufferFits (x + 1) (y + 1) := by
  have hlt := (h.of_started hb hc).1
  have hlen : (l.rx.hold ++ [v]).length = l.rx.hold.length + 1 := by simp
  rw [storeErrored_started hb hc i time rfl pe fe rfl]
  generalize l.rx.hold ++ [v] = w at hlen
  repeat' split
  · exact bufferFits_closing h hb time .full none hlen.le
  · exact bufferFits_closing h hb time .error none hlen.le
  · exact bufferFits_storing h hb hc (.inl rfl) (by rw [List.length_nil]; omega) (by rw [List.length_nil]; omega)

/-- A loss noted in a started buffer leaves it started. -/
theorem bufferFits_noteLoss (h : l.bufferFits x y) (hb : l.rx.bufs = b :: rest) (hc : b.cond = .started n e f)
    (loss : Bool) : (l.noteLoss loss).bufferFits x y ∧
      ∃ b' n' e' f', (l.noteLoss loss).rx.bufs = b' :: rest ∧ b'.cond = .started n' e' f' := by
  cases loss with
  | false => exact ⟨h, b, n, e, f, hb, hc⟩
  | true =>
    rw [noteLoss_started hb hc rfl]
    exact ⟨bufferFits_storing (m := 0) h hb hc (.inl rfl) (by simpa using (h.of_started hb hc).1) (by simp),
      _, _, _, _, storing_bufs _ _, rfl⟩

/-- A waiting front record becomes started, with the loss carried to it at offset 0 (R59). -/
theorem startBuffer_waiting (hb : l.rx.bufs = b :: rest) (hc : b.cond = .waiting) :
    l.startBuffer = { l with rx := { l.rx with
      bufs := { b with
        cond := .started 0 { parity := false, framing := false, overrun := l.rx.lossCarried }
          (if l.rx.lossCarried then some 0 else none) } :: rest
      lossCarried := false, hold := [], written := 0 } } := by
  cases hl : l.rx.lossCarried <;>
    simp [Line.startBuffer, hb, hc, hl, ErrorSet.empty, ErrorSet.overrunOnly]

/-- A valid front record is started by the writer (R59). -/
theorem bufferFits_startBuffer (h : l.bufferFits x y) (hv : l.frontValid = true) (hslot : l.rx.slot = none) :
    l.startBuffer.bufferFits x y ∧
      ∃ b' rest' n' e' f', l.startBuffer.rx.bufs = b' :: rest' ∧ b'.cond = .started n' e' f' := by
  cases hb : l.rx.bufs with
  | nil => simp [Line.frontValid, hb] at hv
  | cons b rest =>
    cases hc : b.cond with
    | invalid f => simp [Line.frontValid, hb, RxBuf.isInvalid, hc] at hv
    | started n e f =>
      have hsame : l.startBuffer = l := by simp [Line.startBuffer, hb, hc]
      rw [hsame]
      exact ⟨h, b, rest, n, e, f, hb, hc⟩
    | waiting =>
      have hmem := hb ▸ h.lengths
      have hpos : 1 ≤ b.len := hmem b (List.mem_cons_self ..) (by simp [RxBuf.isInvalid, hc])
      have htail := hb ▸ h.tail
      rw [startBuffer_waiting hb hc]
      refine ⟨⟨h.delims, .inl rfl, ?_, htail, fun _ => ⟨?_, hslot⟩, fun he => ?_, fun he => ?_⟩, _, _, _, _, _, rfl, rfl⟩
      · intro b' hb' hvalid
        rcases List.mem_cons.1 hb' with rfl | hr
        · exact hpos
        · exact hmem b' (List.mem_cons_of_mem _ hr) hvalid
      · simpa [Line.stored, Line.frontLength] using Nat.lt_of_lt_of_le Nat.zero_lt_one hpos
      · exact (Nat.le_add_right _ _).trans (h.flight he)
      · exact (Nat.le_add_right _ _).trans (h.room he)

theorem bufferFits_takeChar (h : l.bufferFits x y) (hv : l.frontValid = true) (hslot : l.rx.slot = none) (i : LineNo)
    (time : Word) (v : Byte) (pe fe loss : Bool) : (l.takeChar i time v pe fe loss).bufferFits (x + 1) (y + 1) := by
  obtain ⟨h1, b1, rest, n1, e1, f1, hb1, hc1⟩ := bufferFits_startBuffer h hv hslot
  obtain ⟨h2, b2, n2, e2, f2, hb2, hc2⟩ := bufferFits_noteLoss h1 hb1 hc1 loss
  unfold Line.takeChar
  dsimp only
  split
  · exact bufferFits_storeErrored h2 hb2 hc2 i time v pe fe
  · exact bufferFits_matchChar h2 hb2 hc2 i time v

theorem appendEvent_shrinks {a : RxSide} (l : Line) (c : Completion) (h : BufferShrinks a l.rx) :
    BufferShrinks a (l.appendEvent c).rx := h.trans (.of_eq (appendEvent_keeps l c).2.1)

theorem carryLoss_shrinks {a : RxSide} (l : Line) (loss : Bool) (h : BufferShrinks a l.rx) :
    BufferShrinks a (l.carryLoss loss).rx := by
  rw [carryLoss_eq]
  exact h.trans ⟨.inl rfl, .inl rfl, .inl rfl, rfl, rfl, .inl rfl, id⟩

theorem bufferFits_takeMarker (h : l.bufferFits x y) (gap : Bool) (i : LineNo) (time : Word) (loss : Bool) :
    (l.takeMarker gap i time loss).bufferFits x y := by
  cases hs : l.hasStarted with
  | false =>
    rw [takeMarker_unstarted hs]
    split
    · exact h.shrinks (carryLoss_shrinks l loss (.refl _))
    · exact h.shrinks (appendEvent_shrinks _ _ (carryLoss_shrinks l loss (.refl _)))
  | true =>
    obtain ⟨b, rest, n, e, f, hb, hc⟩ := hasStarted_iff.1 hs
    rw [takeMarker_started hb hc gap i time loss rfl]
    exact (bufferFits_closing (m := 0) h hb time _ none le_rfl).shrinks (.of_eq rfl)

theorem bufferFits_answerFront (h : l.bufferFits x y) (i : LineNo) (time : Word) (reason : RxReason) :
    (l.answerFront i time reason).bufferFits x y := by
  cases hb : l.rx.bufs with
  | nil => simpa [Line.answerFront, hb] using h
  | cons b rest =>
    have hmem := hb ▸ h.lengths
    have htail := hb ▸ h.tail
    have he : l.answerFront i time reason = { l with rx := { l.rx with
        bufs := rest, slot := some (l.rxDone i time b 0 reason ErrorSet.empty none none) } } := by
      simp [Line.answerFront, hb]
    rw [he]
    refine ⟨h.delims, h.hold, fun b' hb' => hmem b' (List.mem_cons_of_mem _ hb'),
      fun b' hb' => htail b' (List.mem_of_mem_tail hb'), fun hs => ?_, h.flight, h.room⟩
    rw [h.rest_not_started hb rfl] at hs
    cases hs

theorem bufferFits_answerBuffer (h : l.bufferFits x y) (i : LineNo) (time : Word) :
    (l.answerBuffer i time).bufferFits x y := by
  unfold Line.answerBuffer
  split
  next b rest hb =>
    split
    next n e f hc => exact bufferFits_releaseHold_closeBuffer h (hasStarted_of_started hb hc) i time _ _
    · exact bufferFits_answerFront h i time _
    · exact bufferFits_answerFront h i time _
  · exact h

/-- A chunk write's result (R63, R77): what stood beside the write in flight has room without it. -/
theorem bufferFits_takeChunk {m : Nat} (h : l.bufferFits x y) (hfl : l.rx.inFlight = some m) (i : LineNo) (time : Word)
    (n : Nat) (ok : Bool) : (l.takeChunk i time n ok).bufferFits x x := by
  have hle := h.flight (by simp [hfl])
  have hkeep : ∀ c, c = l.rx.chunk ∨ c = [] →
      Line.bufferFits { l with rx := { l.rx with inFlight := none, chunk := c } } x x := fun c hc =>
    ⟨h.delims, h.hold, h.lengths, h.tail, h.started, fun he => absurd rfl he, fun _ => by
      rcases hc with rfl | rfl
      · exact hle
      · exact (Nat.add_le_add_right (Nat.zero_le _) _).trans hle⟩
  unfold Line.takeChunk
  dsimp only
  split
  · exact (hkeep _ (.inl rfl)).shrinks ⟨.inl rfl, .inl rfl, .inl rfl, rfl, rfl, .inl rfl, id⟩
  · split
    next c hslot =>
      have hns : l.hasStarted = true → False := fun hs => by
        have := (h.started hs).2
        rw [hslot] at this
        cases this
      exact { hkeep _ (.inr rfl) with started := fun hs => (hns hs).elim }
    next hslot =>
      split
      next b rest hb =>
        split
        next ns e f hc =>
          have hmem := hb ▸ h.lengths
          have htail := hb ▸ h.tail
          refine ⟨h.delims, .inl rfl, fun b' hb' => hmem b' (List.mem_cons_of_mem _ hb'),
            fun b' hb' => htail b' (List.mem_of_mem_tail hb'), fun hs => ?_, fun he => absurd rfl he,
            fun _ => Nat.zero_le _⟩
          rw [h.rest_not_started hb rfl] at hs
          cases hs
        · exact hkeep _ (.inl rfl)
      · exact hkeep _ (.inl rfl)

/-! ### Settling issues the chunk -/

/-- A due chunk write leaves the chunk within its 16 places (R63, R64). -/
theorem bufferAgrees_settled (h : l.bufferFits 13 29) (time : Word) (q : ReqQueue) :
    (l.settled i time q).bufferAgrees := by
  have hhold := h.hold_le
  have hfits : ∀ k : Line, k.rx.delims = l.rx.delims → k.rx.hold = l.rx.hold → k.rx.bufs = l.rx.bufs →
      k.rx.slot = l.rx.slot → (k.rx.inFlight ≠ none → k.rx.chunk.length + l.rx.hold.length ≤ 13) →
      (k.rx.inFlight = none → k.rx.chunk.length ≤ 15) → k.bufferAgrees := by
    intro k hd hh hb hs hf hr
    obtain ⟨hst, hn, hl⟩ := hasStarted_congr hb
    refine ⟨hd ▸ h.delims, by rw [hd, hh]; exact h.hold, hb ▸ h.lengths, hb ▸ h.tail, fun e => ?_, hh ▸ hf, hr⟩
    rw [hn, hh, hl, hs]
    exact h.started (hst ▸ e)
  have hrx := settled_rx l i time q
  unfold Line.chunkIssued at hrx
  split at hrx
  next hdue =>
    obtain ⟨hnone, hne, _⟩ := (chunkDue_iff l).1 hdue
    have hroom := h.room hnone
    refine hfits _ (by rw [hrx]) (by rw [hrx]) (by rw [hrx]) (by rw [hrx]) (fun _ => ?_) (fun e => ?_)
    · rw [hrx, List.length_drop]
      omega
    · rw [hrx] at e; cases e
  next hdue =>
    refine hfits _ (by rw [hrx]) (by rw [hrx]) (by rw [hrx]) (by rw [hrx]) (fun e => ?_) (fun e => ?_)
    · rw [hrx] at e ⊢
      exact h.flight e
    · rw [hrx] at e ⊢
      by_contra hgt
      exact hdue ((chunkDue_iff l).2 ⟨e, fun hn => by simp [hn] at hgt, .inl (by omega)⟩)

/-! ### The happenings of a line that shrink its buffer side, or leave it -/

section
variable {a : RxSide}

/-- Aborts discard the hold and leave the buffers. -/
theorem abort_shrinks (l : Line) (i : LineNo) (time : Word) (h : BufferShrinks a l.rx) :
    BufferShrinks a (l.abort i time).rx :=
  h.trans (BufferShrinks.trans (b := { l.discardFifo.stopInput.rx with hold := [] })
    ⟨.inl rfl, .inr rfl, .inl rfl, rfl, rfl, .inl rfl, fun _ => Nat.zero_le _⟩ (.of_eq (abortCurrent_onlyTx _ i time).rx))

theorem join_fifo (l : Line) (e : Bool → FifoEntry) : (l.join e).rx.fifo = l.rx.fifo ++ [e l.rx.lossPending] :=
  congrArg RxSide.fifo (flowRise_onlyFlow { l with rx := { l.rx with
    fifo := l.rx.fifo ++ [e l.rx.lossPending], lossPending := false } }).rx

theorem joinChar_fifo (l : Line) (v : Byte) (pe fe : Bool) :
    (l.joinChar v pe fe).rx.fifo = l.rx.fifo ++ [.char v pe fe l.rx.lossPending] := join_fifo _ _

/-- An entry joins a FIFO with room. -/
theorem join_shrinks (l : Line) (e : Bool → FifoEntry) (hlt : l.rx.fifo.length < 32) (h : BufferShrinks a l.rx) :
    BufferShrinks a (l.join e).rx :=
  h.trans (BufferShrinks.trans (b := { l.rx with fifo := l.rx.fifo ++ [e l.rx.lossPending], lossPending := false })
    ⟨.inl rfl, .inl rfl, .inl rfl, rfl, rfl, .inl rfl, fun _ => by simpa using hlt⟩ (.of_eq (flowRise_onlyFlow _).rx))

theorem joinChar_shrinks (l : Line) (v : Byte) (pe fe : Bool) (hlt : l.rx.fifo.length < 32) (h : BufferShrinks a l.rx) :
    BufferShrinks a (l.joinChar v pe fe).rx :=
  join_shrinks _ _ hlt (h.trans (b := l.rx) ⟨.inl rfl, .inl rfl, .inl rfl, rfl, rfl, .inl rfl, id⟩)

theorem gapRestart_shrinks (l : Line) (h : BufferShrinks a l.rx) : BufferShrinks a l.gapRestart.rx := by
  unfold Line.gapRestart
  split
  · exact h
  · exact h.trans ⟨.inl rfl, .inl rfl, .inl rfl, rfl, rfl, .inl rfl, id⟩

theorem gapRestart_fifo (l : Line) : l.gapRestart.rx.fifo = l.rx.fifo := by
  unfold Line.gapRestart
  split <;> rfl

theorem failDiscovery_shrinks (l : Line) (i : LineNo) (time : Word) (r : FailReason) (h : BufferShrinks a l.rx) :
    BufferShrinks a (l.failDiscovery i time r).rx := abort_shrinks _ i time h

theorem failAttempt_shrinks (l : Line) (i : LineNo) (time : Word) (h : BufferShrinks a l.rx) :
    BufferShrinks a (l.failAttempt i time).rx := by
  have h' : BufferShrinks a { l.rx with asm := .idle } := h.trans ⟨.inl rfl, .inl rfl, .inl rfl, rfl, rfl, .inl rfl, id⟩
  unfold Line.failAttempt
  dsimp only
  split
  · exact failDiscovery_shrinks _ i time .attempts h'
  · exact h'

theorem openWith_shrinks (l : Line) (r : List Byte) : BufferShrinks l.rx (l.openWith r).rx := by
  unfold Line.openWith
  dsimp only
  split <;> exact ⟨.inr ⟨rfl, rfl⟩, .inr rfl, .inl rfl, rfl, rfl, .inl rfl, fun _ => Nat.zero_le _⟩

theorem modify_shrinks (l : Line) (r : List Byte) : BufferShrinks l.rx (l.modify r).rx := by
  unfold Line.modify
  dsimp only
  split
  · rw [(flowRise_onlyFlow _).rx]
    exact ⟨.inl rfl, .inl rfl, .inl rfl, rfl, rfl, .inl rfl, id⟩
  · rw [(flowFall_onlyFlow _).rx]
    exact ⟨.inl rfl, .inl rfl, .inl rfl, rfl, rfl, .inl rfl, id⟩

theorem takeClose_shrinks (l : Line) (i : LineNo) (time : Word) (m : CloseMode) (tag : Half) (limit n : Nat) :
    BufferShrinks l.rx (l.takeClose i time m tag limit n).rx := by
  unfold Line.takeClose
  cases m with
  | graceful => exact ⟨.inl rfl, .inl rfl, .inl rfl, rfl, rfl, .inl rfl, id⟩
  | immediate => exact abort_shrinks _ i time ⟨.inl rfl, .inl rfl, .inl rfl, rfl, rfl, .inl rfl, id⟩

theorem overtake_shrinks (l : Line) (i : LineNo) (time : Word) (g tag : Half) :
    BufferShrinks l.rx (l.overtake i time g tag).rx := by
  unfold Line.overtake
  dsimp only
  split
  · exact abort_shrinks _ i time (.refl l.rx)
  · exact .refl l.rx

theorem stopLine_shrinks (l : Line) (i : LineNo) (time : Word) : BufferShrinks l.rx (l.stopLine i time).rx := by
  unfold Line.stopLine
  split
  · exact .refl l.rx
  · split
    · exact abort_shrinks l i time (.refl l.rx)
    · exact .refl l.rx
  · exact abort_shrinks _ i time (.refl l.rx)

theorem lose_shrinks (l : Line) (h : BufferShrinks a l.rx) : BufferShrinks a l.lose.rx :=
  h.trans ⟨.inl rfl, .inl rfl, .inl rfl, rfl, rfl, .inl rfl, id⟩

theorem openChar_shrinks (l : Line) (c : Received) (h : BufferShrinks a l.rx) : BufferShrinks a (l.openChar c).rx := by
  have hg := gapRestart_shrinks l h
  unfold Line.openChar
  dsimp only
  repeat' split
  · rw [(peerFlow_onlyFlow _ _).rx]
    exact hg
  · exact lose_shrinks _ hg
  next hlt =>
    refine joinChar_shrinks _ _ _ _ ?_ hg
    rw [gapRestart_fifo]
    exact Nat.lt_of_not_le hlt

theorem succeed_shrinks (l : Line) (i : LineNo) (time : Word) (t : List RateEntry) (v w : Byte) :
    BufferShrinks l.rx (l.succeed i time t v w).rx := by
  unfold Line.succeed
  dsimp only
  refine appendEvent_shrinks _ _ ?_
  split
  · refine gapRestart_shrinks _ (joinChar_shrinks _ _ _ _ ?_ (joinChar_shrinks _ _ _ _ (by simp)
      ⟨.inl rfl, .inl rfl, .inl rfl, rfl, rfl, .inl rfl, fun _ => Nat.zero_le _⟩))
    rw [joinChar_fifo]
    simp
  · exact ⟨.inl rfl, .inl rfl, .inl rfl, rfl, rfl, .inl rfl, fun _ => Nat.zero_le _⟩

theorem trialChar_shrinks (l : Line) (i : LineNo) (time : Word) (t : List RateEntry) (c : Received) :
    BufferShrinks l.rx (l.trialChar i time t c).rx := by
  unfold Line.trialChar
  dsimp only
  repeat' split
  · exact failAttempt_shrinks l i time (.refl l.rx)
  · exact ⟨.inl rfl, .inl rfl, .inl rfl, rfl, rfl, .inl rfl, id⟩
  · exact failAttempt_shrinks l i time (.refl l.rx)
  · exact succeed_shrinks l i time t _ _

theorem openBreak_shrinks (l : Line) : BufferShrinks l.rx l.openBreak.rx := by
  unfold Line.openBreak
  dsimp only
  split
  · exact lose_shrinks _ ⟨.inl rfl, .inl rfl, .inl rfl, rfl, rfl, .inl rfl, id⟩
  next hlt => exact join_shrinks _ _ (Nat.lt_of_not_le hlt) ⟨.inl rfl, .inl rfl, .inl rfl, rfl, rfl, .inl rfl, id⟩

theorem evaluateWindow_shrinks (l : Line) (i : LineNo) (time : Word) (t : List RateEntry) :
    BufferShrinks l.rx (l.evaluateWindow i time t).rx := by
  unfold Line.evaluateWindow
  split
  · exact ⟨.inl rfl, .inl rfl, .inl rfl, rfl, rfl, .inl rfl, id⟩
  · exact failAttempt_shrinks l i time (.refl l.rx)

theorem takeInterval_shrinks (l : Line) (i : LineNo) (time : Word) (t : List RateEntry) (n : Nat) :
    BufferShrinks l.rx (l.takeInterval i time t n).rx := by
  rw [takeInterval_eq]
  repeat' split
  · exact .refl l.rx
  · exact evaluateWindow_shrinks (l.countInterval n) i time t
  · exact .refl l.rx

theorem gapExpire_shrinks (l : Line) : BufferShrinks l.rx l.gapExpire.rx := by
  unfold Line.gapExpire
  dsimp only
  split
  next hlt => exact join_shrinks _ _ hlt.2 ⟨.inl rfl, .inl rfl, .inl rfl, rfl, rfl, .inl rfl, id⟩
  · exact ⟨.inl rfl, .inl rfl, .inl rfl, rfl, rfl, .inl rfl, id⟩

theorem dataSent_shrinks (l : Line) (i : LineNo) (time : Word) : BufferShrinks l.rx (l.dataSent i time).rx := by
  unfold Line.dataSent
  dsimp only
  repeat' split
  · exact .of_eq (endRecord_onlyTx _ _ _ _).rx
  · exact .refl l.rx
  · exact .of_eq (endRecord_onlyTx _ _ _ _).rx
  · exact .refl l.rx
  · exact .refl l.rx

theorem popFifo_flowFall_shrinks (l : Line) : BufferShrinks l.rx l.popFifo.flowFall.rx := by
  rw [(flowFall_onlyFlow _).rx]
  refine ⟨.inl rfl, .inl rfl, .inl rfl, rfl, rfl, .inl rfl, fun h => ?_⟩
  simp only [Line.popFifo, List.length_tail]
  omega

theorem discardFifo_shrinks (l : Line) : BufferShrinks l.rx l.discardFifo.rx :=
  ⟨.inl rfl, .inl rfl, .inl rfl, rfl, rfl, .inl rfl, fun _ => Nat.zero_le _⟩

end

theorem bufferFits_rediscover (h : l.bufferFits x y) (i : LineNo) (time : Word) :
    (l.rediscover i time).bufferFits x y := by
  have hdrop : Line.bufferFits { l.discardFifo with rx := { l.discardFifo.rx with hold := [] } } x y :=
    h.shrinks ⟨.inl rfl, .inr rfl, .inl rfl, rfl, rfl, .inl rfl, fun _ => Nat.zero_le _⟩
  have hclose := bufferFits_closeBuffer hdrop i time .rateChange none
  unfold Line.rediscover
  dsimp only
  generalize Line.closeBuffer _ i time .rateChange none = k at hclose
  exact hclose.shrinks (BufferShrinks.trans (b := k.flowFall.chooseOutput.rx)
    (.of_eq ((chooseOutput_keepsRx _).trans (flowFall_onlyFlow _).rx))
    ⟨.inl rfl, .inl rfl, .inl rfl, rfl, rfl, .inl rfl, id⟩)

theorem bufferFits_flushRx (h : l.bufferFits x y) (i : LineNo) (time : Word) : (l.flushRx i time).bufferFits x y := by
  have hd : l.discardFifo.bufferFits x y := h.shrinks (discardFifo_shrinks l)
  unfold Line.flushRx
  dsimp only
  split
  · split
    · exact hd
    · exact h
  · refine Line.bufferFits.shrinks ?_ (.of_eq (flowFall_onlyFlow _).rx)
    split
    next hs => exact bufferFits_releaseHold_closeBuffer hd hs i time .flushed none
    · exact hd

/-- The delimiters of a checked block have 1 to 4 bytes (R65, R66). -/
theorem blockDelims_lengths {r : List Byte} (h : firstFailure (delimChecks r) = none) :
    ∀ d ∈ blockDelims r (recByte r 4).toNat, 1 ≤ d.bytes.length ∧ d.bytes.length ≤ 4 := by
  simp only [firstFailure, delimChecks, Option.map_eq_none_iff, List.find?_eq_none, List.mem_cons, List.not_mem_nil,
    or_false, forall_eq_or_imp, forall_eq, Bool.not_eq_true'] at h
  obtain ⟨_, hlen, _⟩ := h
  simp only [List.all_eq_true, List.mem_range, decide_eq_true_eq, Bool.not_eq_false] at hlen
  intro d hd
  obtain ⟨k, hk, rfl⟩ := List.mem_map.1 hd
  simpa [slotBytes] using hlen k (List.mem_range.1 hk)

theorem releaseHold_hold (l : Line) : l.releaseHold.rx.hold = [] := rfl

theorem bufferFits_setDelims (h : l.bufferFits x y) {r : List Byte} (hr : firstFailure (delimChecks r) = none) :
    (l.setDelims r).bufferFits x y := by
  have hrel := bufferFits_releaseHold h
  exact ⟨blockDelims_lengths hr, .inl rfl, hrel.lengths, hrel.tail, hrel.started, hrel.flight, hrel.room⟩

/-- The writer takes an entry beside a chunk write in flight with at most 9 bytes in the chunk (R64). -/
theorem bufferFits_of_mayTake (h : l.bufferAgrees) (hw : l.writerMayTake = true) : l.bufferFits 12 18 := by
  obtain ⟨_, _, _, hfl⟩ := (writerMayTake_iff l).1 hw
  have h0 := bufferFits_of_agrees h
  have hhold := h0.hold_le
  refine { h0 with flight := fun e => ?_ }
  have : ¬ 9 < l.rx.chunk.length := fun hgt => hfl ⟨e, hgt⟩
  omega

theorem bufferFits_lineMove (m : LineMove s i l) (h : (s.line i).bufferAgrees) : l.bufferFits 13 29 := by
  have h0 : (s.line i).bufferFits 13 29 := (bufferFits_of_agrees h).mono le_rfl (by omega)
  cases m with
  | settle => exact h0
  | openLine r _ _ _ => exact h0.shrinks (openWith_shrinks _ r)
  | modify r _ => exact h0.shrinks (modify_shrinks _ r)
  | setDelims r _ hr => exact bufferFits_setDelims h0 hr
  | rediscover _ _ _ => exact bufferFits_rediscover h0 i _
  | takeFlush tag n _ => exact h0.shrinks (.of_eq (flushCurrent_onlyTx _ i _).rx)
  | flushRx _ => exact bufferFits_flushRx h0 i _
  | takeClose m tag lim n _ => exact h0.shrinks (takeClose_shrinks _ i _ m tag lim n)
  | overtake g tag _ => exact h0.shrinks (overtake_shrinks _ i _ g tag)
  | openChar c _ =>
    exact h0.shrinks (openChar_shrinks _ c ⟨.inl rfl, .inl rfl, .inl rfl, rfl, rfl, .inl rfl, id⟩)
  | trialChar c _ => exact h0.shrinks (trialChar_shrinks _ i _ _ c)
  | openBreak _ => exact h0.shrinks (openBreak_shrinks _)
  | failAttempt _ => exact h0.shrinks (failAttempt_shrinks _ i _ (.refl _))
  | takeInterval n _ => exact h0.shrinks (takeInterval_shrinks _ i _ _ n)
  | gapExpire _ => exact h0.shrinks (gapExpire_shrinks _)
  | failDiscovery r _ => exact h0.shrinks (failDiscovery_shrinks _ i _ r (.refl _))
  | takeChar v pe fe loss hw hv =>
    have hpop := (bufferFits_of_mayTake h hw).shrinks (popFifo_flowFall_shrinks (s.line i))
    have hv' : (s.line i).popFifo.flowFall.frontValid = true := by
      rw [Line.frontValid, (flowFall_onlyFlow _).rx]; exact hv
    have hslot : (s.line i).popFifo.flowFall.rx.slot = none := by
      rw [(flowFall_onlyFlow _).rx]
      exact ((writerMayTake_iff _).1 hw).2.1
    exact (bufferFits_takeChar hpop hv' hslot i s.time v pe fe loss).mono le_rfl (by omega)
  | takeMarker gap loss _ => exact bufferFits_takeMarker (h0.shrinks (popFifo_flowFall_shrinks _)) gap i _ loss
  | answerBuffer _ _ => exact bufferFits_answerBuffer h0 i _
  | takeChunk n ok hfl => exact (bufferFits_takeChunk h0 hfl i _ n ok).mono le_rfl (by omega)
  | dataSent bits _ => exact h0.shrinks (dataSent_shrinks _ i _)
  | flowSent c bits _ => exact h0.shrinks (.of_eq (flowSent_onlyTx _ i _).rx)
  | endBreak _ => exact h0.shrinks (.of_eq (endRecord_onlyTx (s.line i).stopBreak i _ .ok).rx)
  | pauseExpire _ => exact h0.shrinks (appendEvent_shrinks _ _ (.refl _))
  | cutDrain _ => exact h0.shrinks (abort_shrinks _ i _ (.refl _))
  | event c => exact h0.shrinks (appendEvent_shrinks _ c (.refl _))

theorem quietMove_shrinks (m : QuietMove s i l) : BufferShrinks (s.line i).rx l.rx := by
  cases m with
  | clearCounters => exact .of_eq rfl
  | breakEnds _ =>
    exact gapRestart_shrinks _ ⟨.inl rfl, .inl rfl, .inl rfl, rfl, rfl, .inl rfl, id⟩
  | measure _ => exact .of_eq rfl
  | assembler _ => exact ⟨.inl rfl, .inl rfl, .inl rfl, rfl, rfl, .inl rfl, id⟩
  | finishClose _ _ => exact ⟨.inl rfl, .inr rfl, .inr rfl, rfl, rfl, .inl rfl, fun _ => Nat.zero_le _⟩
  | giveUpRx _ _ => exact ⟨.inl rfl, .inl rfl, .inl rfl, rfl, rfl, .inr rfl, id⟩
  | giveUpTx _ => exact .of_eq rfl
  | giveUpEvent => exact .of_eq rfl

/-- An accepted receive post record joins the back of the list, not started, and valid only with a length (R54, R55). -/
theorem bufferFits_deliverRx (h : l.bufferFits x y) (ws : List Window) (r : List Byte) :
    Line.bufferFits { l with rx := { l.rx with bufs := l.rx.bufs ++ [checkRxBuf ws (rxBufOf r)] } } x y := by
  obtain ⟨hvalid, hfresh⟩ : ((checkRxBuf ws (rxBufOf r)).isInvalid = false → 1 ≤ (checkRxBuf ws (rxBufOf r)).len) ∧
      ¬ (checkRxBuf ws (rxBufOf r)).isStarted := by
    unfold checkRxBuf
    repeat' split
    · exact ⟨fun hc => by simp [RxBuf.isInvalid] at hc, fun ⟨_, _, _, hc⟩ => by cases hc⟩
    next h0 _ => exact ⟨fun _ => Nat.one_le_iff_ne_zero.2 h0, not_isStarted_waiting _ rfl⟩
    · exact ⟨fun hc => by simp [RxBuf.isInvalid] at hc, fun ⟨_, _, _, hc⟩ => by cases hc⟩
  generalize checkRxBuf ws (rxBufOf r) = a at hvalid hfresh
  refine ⟨h.delims, h.hold, fun b hb hv => ?_, fun b hb => ?_, fun hs => ?_, h.flight, h.room⟩
  · rcases List.mem_append.1 hb with hb | hb
    · exact h.lengths b hb hv
    · obtain rfl := List.mem_singleton.1 hb
      exact hvalid hv
  · have htail := h.tail
    cases hl : l.rx.bufs with
    | nil => simp [hl] at hb
    | cons c cs =>
      rw [hl] at htail
      simp only [hl, List.cons_append, List.tail_cons, List.mem_append, List.mem_singleton] at hb
      rcases hb with hb | rfl
      · exact htail b hb
      · exact hfresh
  · cases hl : l.rx.bufs with
    | nil =>
      obtain ⟨b, rest, n, e, f, hb, hc⟩ := hasStarted_iff.1 hs
      simp only [hl, List.nil_append, List.cons.injEq] at hb
      obtain ⟨rfl, rfl⟩ := hb
      exact absurd ⟨n, e, f, hc⟩ hfresh
    | cons c cs =>
      have := h.started
      simp only [Line.hasStarted, Line.stored, Line.frontLength, hl, List.cons_append, List.head?_cons] at this hs ⊢
      exact this hs

theorem Line.bufferFits.onlyTx (h : l.bufferFits x y) (hk : OnlyTx l k) : k.bufferFits x y := h.shrinks (.of_eq hk.rx)

theorem bufferAgrees_reset : Line.reset.bufferAgrees := by
  obtain ⟨_, _, _, _, _, _, _, hbuf, _⟩ := resetMeetsTheInvariants
  exact reset_line 0 ▸ hbuf 0

theorem bufferAgrees_change (h : (s.line i).bufferAgrees) (m : LineChange s t i l) : l.bufferAgrees := by
  have h0 : (s.line i).bufferFits 13 29 := (bufferFits_of_agrees h).mono le_rfl (by omega)
  cases m with
  | same => exact h
  | quiet _ m => exact bufferAgrees_shrinks h (quietMove_shrinks m)
  | takes _ _ _ m => exact bufferAgrees_settled (bufferFits_lineMove m h) _ _
  | dataRead n x time q _ _ => exact bufferAgrees_settled (h0.onlyTx (takeRead_onlyTx _ _ _ _)) _ _
  | deliverRx b time q _ _ hb _ =>
    obtain ⟨ws, r, rfl⟩ := hb
    exact bufferAgrees_settled (bufferFits_deliverRx h0 ws r) _ _
  | answerTx tag st time q _ _ _ => exact bufferAgrees_settled (h0.onlyTx (answerTx_onlyTx _ _ _ _ _)) _ _
  | acceptTx r ws time q _ _ _ => exact bufferAgrees_settled (h0.onlyTx (acceptTx_onlyTx _ _ _ _ _)) _ _
  | stopLine time => exact bufferAgrees_shrinks h (stopLine_shrinks _ i time)
  | tick => exact bufferAgrees_shrinks h (.of_eq rfl)
  | fresh => exact bufferAgrees_reset
  | expireStop =>
    unfold Line.expireStop
    split
    · exact bufferAgrees_shrinks h ⟨.inl rfl, .inl rfl, .inl rfl, rfl, rfl, .inr rfl, id⟩
    · exact bufferAgrees_reset

/-- Settles O58: what the writer stores and holds keeps within the buffer, and settling issues the chunk before it overruns. -/
theorem stepKeepsTheBufferSide : Obligations.StepKeepsTheBufferSide :=
  keptByEveryStep_of_changes (P := fun _ l => l.bufferAgrees) (fun _ => bufferAgrees_reset)
    fun _ _ _ _ => bufferAgrees_change

end Sys2Proof.Machine
end

section
/-! PROOF. What a line does at its receive input: characters in OPEN and in TRIAL, the assembler, low intervals and the
timers of reception (O25 to O29), and the two flow tests (O51). -/

namespace Sys2Proof.Machine

variable {s t : State} {i : LineNo} {l : Line}

/-! ### The line's own effects, as equations -/

theorem gapRestart_eq (l : Line) : l.gapRestart = { l with rx := { l.rx with
    gapTimer := if l.set.gap = 0 then l.rx.gapTimer
      else some (l.set.gap * (l.frame.bitCount * l.divisor)) } } := by
  unfold Line.gapRestart
  split <;> rfl

theorem peerFlow_resume (l : Line) : l.peerFlow .resume = { l with flow := { l.flow with
    peerPaused := false, timer := if l.flow.peerPaused then none else l.flow.timer } } := by
  rcases l with ⟨_, _, _, _, _, _, ⟨_, paused, _, _⟩, _, _, _, _, _, _⟩
  cases paused <;> rfl

theorem divert_eq (l : Line) (c : Received) : l.divert c =
    if l.set.flowMode = .inband ∧ c.parityError = false ∧ c.framingError = false ∧ c.value = l.set.pauseValue then
      some .pause
    else if l.set.flowMode = .inband ∧ c.parityError = false ∧ c.framingError = false ∧ c.value = l.set.resumeValue then
      some .resume
    else none := by
  by_cases h : l.set.flowMode = .inband ∧ c.parityError = false ∧ c.framingError = false
  · simp [Line.divert, h]
  · have hp : ∀ v, ¬ (l.set.flowMode = .inband ∧ c.parityError = false ∧ c.framingError = false ∧ c.value = v) :=
      fun v ⟨h1, h2, h3, _⟩ => h ⟨h1, h2, h3⟩
    rw [Line.divert, if_neg h, if_neg (hp _), if_neg (hp _)]

/-- The rows of R24: a clean flow character, a full FIFO, or a character that joins. -/
theorem openChar_eq (l : Line) (c : Received) : l.openChar c =
    if l.set.flowMode = .inband ∧ c.parityError = false ∧ c.framingError = false ∧ c.value = l.set.pauseValue then
      l.gapRestart.peerFlow .pause
    else if l.set.flowMode = .inband ∧ c.parityError = false ∧ c.framingError = false ∧ c.value = l.set.resumeValue then
      l.gapRestart.peerFlow .resume
    else if 32 ≤ l.rx.fifo.length then l.gapRestart.lose
    else l.gapRestart.joinChar c.value c.parityError c.framingError := by
  rw [Line.openChar, divert_eq]
  by_cases hp : l.set.flowMode = .inband ∧ c.parityError = false ∧ c.framingError = false ∧ c.value = l.set.pauseValue
  · simp only [if_pos hp]
  · by_cases hr : l.set.flowMode = .inband ∧ c.parityError = false ∧ c.framingError = false ∧
        c.value = l.set.resumeValue
    · simp only [if_neg hp, if_pos hr]
    · simp only [if_neg hp, if_neg hr]

theorem joinChar_set (l : Line) (v : Byte) (pe fe : Bool) : (l.joinChar v pe fe).set = l.set :=
  (flowRise_onlyFlow _).set

theorem keepTrialPair_set (l : Line) (v w : Byte) : (l.keepTrialPair v w).set = l.set := by
  rw [Line.keepTrialPair, (gapRestart_onlyRx _).set, joinChar_set, joinChar_set]

theorem findRate_of_none {t : List RateEntry} {m : Nat} (h : ∀ e ∈ t, m < e.min ∨ e.max < m) : findRate t m = none := by
  refine List.findIdx?_eq_none_iff.2 fun e he => ?_
  rcases h e he with h | h <;> simp <;> omega

/-- The first entry whose range holds the interval is the candidate (R42). -/
theorem findRate_of_first {t : List RateEntry} {m k : Nat} {e : RateEntry} (hk : t[k]? = some e) (hmin : e.min ≤ m)
    (hmax : m ≤ e.max) (hfirst : ∀ j e', j < k → t[j]? = some e' → m < e'.min ∨ e'.max < m) :
    findRate t m = some k := by
  obtain ⟨hlt, rfl⟩ := List.getElem?_eq_some_iff.1 hk
  refine List.findIdx?_eq_some_iff_getElem.2 ⟨hlt, by simp [hmin, hmax], fun j hj => ?_⟩
  have := hfirst j _ hj (List.getElem?_eq_getElem (by omega))
  simp
  omega

theorem rateDivisor_of_some {t : List RateEntry} {k : Nat} {e : RateEntry} (h : t[k]? = some e) :
    rateDivisor t k = e.divisor := by simp [rateDivisor, h]

/-! ### The settled statements -/

/-- Settles O51: each test by the combinations of R99. -/
theorem flowTestsMove : Obligations.FlowTestsMove := by
  unfold Obligations.FlowTestsMove
  intro l
  refine ⟨by simp [Line.flowActive], ?_, ?_⟩
  · unfold Line.flowRise
    by_cases h : l.flowActive = true ∧ l.set.highMark ≤ l.rx.fifo.length
    · rw [if_pos h]
      cases hp : l.flow.ownPaused <;> rcases hs : l.flow.slot with _ | (_ | _) <;> simp [h]
    · rw [if_neg h, if_neg fun h' => h ⟨h'.1, h'.2.1⟩]
  · unfold Line.flowFall
    by_cases h : l.flowActive = true ∧ l.rx.fifo.length ≤ l.set.lowMark
    · rw [if_pos h]
      cases hp : l.flow.ownPaused <;> rcases hs : l.flow.slot with _ | (_ | _) <;> simp [h]
    · rw [if_neg h, if_neg fun h' => h ⟨h'.1, h'.2.1⟩]

/-- Settles O25: the rows of R24, with the gap timer restarted before each. -/
theorem characterCompletesInOpen : Obligations.CharacterCompletesInOpen := by
  unfold Obligations.CharacterCompletesInOpen
  intro s i bits c hr hasm hst hrec
  have hexec : exec (.characterCompletes i bits) s = .next ((s.setRxd i (lastLevel bits)).onLine i fun l =>
      Line.openChar { l with rx := { l.rx with asm := .hunt } } c) := by
    refine (take_of_running hr _).trans ?_
    simp only [hasm, hst, hrec, if_true]
  obtain ⟨t, ht, hrxd, htakes⟩ := lineTakes_of_rxd (lastLevel bits)
    (fun l => Line.openChar { l with rx := { l.rx with asm := .hunt } } c) hexec rfl
  refine ⟨t, ht, hrxd, fun l hl => htakes.of_eq ?_⟩
  rw [openChar_eq, gapRestart_eq, peerFlow_resume, hl]
  rfl

/-- Settles O26: the three rows of R45 by the characters held; the pair that succeeds infers its frame. -/
theorem characterCompletesInTrial : Obligations.CharacterCompletesInTrial := by
  unfold Obligations.CharacterCompletesInTrial
  intro s i bits c hr hasm hst hrec l hl
  subst hl
  have hexec : exec (.characterCompletes i bits) s = .next ((s.setRxd i (lastLevel bits)).onLine i fun l =>
      l.trialChar i s.time s.rateTable c) := by
    refine (take_of_running hr _).trans ?_
    simp only [hasm, hst, hrec, if_true]
  obtain ⟨t, ht, hrxd, htakes⟩ := lineTakes_of_rxd (lastLevel bits)
    (fun l => l.trialChar i s.time s.rateTable c) hexec rfl
  generalize s.line i = l at htakes
  refine ⟨t, _, ht, hrxd, htakes, fun hbad => ?_, fun hfe hheld hval => ?_, ?_⟩
  · cases hheld : l.disc.held with
    | nil => simp_all [Line.trialChar]
    | cons v rest => simp_all [Line.trialChar]
  · simp [Line.trialChar, hheld, hfe, hval]
  · intro v1 rest hfe hheld hval k e hk he even odd hpair f hstop hformat l1 hl1
    have hframe : l.inferFrame v1 c.value = f := by
      rcases f with ⟨fd, fp, fs⟩
      obtain rfl : fs = l.set.stopAfter := hstop
      have hfmt : inferFormat (even.getLsbD 7) (odd.getLsbD 7) = (fd, fp) := by
        rw [hformat]; cases even.getLsbD 7 <;> cases odd.getLsbD 7 <;> rfl
      unfold Line.inferFrame
      split at hpair
      next hw =>
        obtain ⟨rfl, rfl⟩ := hpair
        rw [if_pos hw, hfmt]
      next hw =>
        obtain ⟨rfl, rfl⟩ := hpair
        rw [if_neg hw, hfmt]
    have hdiv := rateDivisor_of_some he
    have hsucceed : l.trialChar i s.time s.rateTable c = l.succeed i s.time s.rateTable v1 c.value := by
      simp [Line.trialChar, hheld, hfe, hval]
    rw [hsucceed, Line.succeed]
    simp only [hk, Option.getD_some, hframe, hdiv]
    subst hl1
    cases l.set.keepTrial
    · rfl
    · simp only [if_true, Line.event, keepTrialPair_set]
      rfl

/-- Settles O27: the assembler's rows, each a command of its own. -/
theorem assemblerFollowsTheInput : Obligations.AssemblerFollowsTheInput := by
  unfold Obligations.AssemblerFollowsTheInput
  intro s i l hr hl
  subst hl
  refine ⟨fun hasm hst => ?_, fun hasm hst => ?_, fun hasm hst => ?_, fun hasm hst => ?_, fun hst => ?_, fun hasm => ?_⟩
  · have hexec : exec (.breakBegins i) s = .next ((s.setRxd i .space).onLine i Line.openBreak) := by
      refine (take_of_running hr _).trans ?_
      simp only [hasm, hst, if_true]
    obtain ⟨t, ht, hrxd, htakes⟩ := lineTakes_of_rxd .space Line.openBreak hexec rfl
    refine ⟨t, ht, hrxd, fun l1 hl1 => htakes.of_eq ?_⟩
    rw [hl1]
    rfl
  · have hexec : exec (.breakBegins i) s =
        .next ((s.setRxd i .space).onLine i fun l => l.failAttempt i s.time) := by
      refine (take_of_running hr _).trans ?_
      simp only [hasm, hst, if_true]
    exact lineTakes_of_rxd .space _ hexec rfl
  · refine (take_of_running hr _).trans (congrArg _ ((if_pos ⟨hasm, hst⟩).trans ?_))
    rw [State.updLine, gapRestart_eq]
    rfl
  · show execFallingEdge i s = _
    rw [execFallingEdge, take_of_running hr]
    exact congrArg (fun l => Host.Outcome.next ((s.setRxd i .space).setLine i l)) ((if_neg hst).trans (if_pos hasm))
  · show execFallingEdge i s = _
    rw [execFallingEdge, take_of_running hr]
    exact congrArg (fun l => Host.Outcome.next ((s.setRxd i .space).setLine i l)) (if_pos hst)
  · refine (take_of_running hr _).trans (congrArg _ ((if_pos hasm).trans ?_))
    rfl

/-- Settles O28: an interval is ignored, counted, or fills the window, which the rate table evaluates. -/
theorem lowIntervalMeasures : Obligations.LowIntervalMeasures := by
  unfold Obligations.LowIntervalMeasures
  intro s i n l hr hl hst
  subst hl
  refine ⟨fun hm => ?_, fun hm => ?_⟩
  · refine (take_of_running hr _).trans ?_
    simp [hst, hm]
  have hexec : exec (.lowInterval i n) s =
      .next ((s.setRxd i .mark).onLine i fun l => l.takeInterval i s.time s.rateTable n) := by
    refine (take_of_running hr _).trans ?_
    simp only [hst, hm, if_true]
  obtain ⟨t, ht, hrxd, htakes⟩ := lineTakes_of_rxd .mark (fun l => l.takeInterval i s.time s.rateTable n) hexec rfl
  refine ⟨t, _, ht, hrxd, htakes, fun hout => ?_, fun hlo hhi m l1 hmin hl1 => ?_⟩
  · rw [takeInterval_eq, if_pos hout]
  have hin : ¬ (n < 16 ∨ 65535 < n) := by omega
  have hcount : (s.line i).countInterval n = l1 := by
    rw [hl1, hmin, Line.countInterval]
    cases (s.line i).disc.shortest <;> simp [Nat.min_comm]
  have hshort : l1.disc.shortest = some m := by rw [hl1]
  rw [takeInterval_eq, if_neg hin, hcount]
  refine ⟨fun hless => if_neg (by omega), fun hfull => ?_⟩
  rw [if_pos hfull, Line.evaluateWindow, hshort]
  refine ⟨fun hnone => ?_, fun k e hk hmin hmax hfirst => ?_⟩
  · rw [Option.bind_some, findRate_of_none hnone]
  · simp only [Option.bind_some, findRate_of_first hk hmin hmax hfirst, rateDivisor_of_some hk, hl1]

/-- Settles O29: each timer's command is one happening of the line. -/
theorem receptionTimersExpire : Obligations.ReceptionTimersExpire := by
  unfold Obligations.ReceptionTimersExpire
  intro s i l hr hl
  subst hl
  refine ⟨fun hst htimer => ?_, fun hst htimer => ?_, fun hst htimer => ?_⟩
  · have hexec : exec (.gapTimerExpiry i) s = .next (s.onLine i Line.gapExpire) := by
      refine (take_of_running hr _).trans ?_
      simp only [hst, Option.isSome_iff_ne_none.2 htimer, and_self, if_true]
    exact lineTakes_of Line.gapExpire hexec rfl
  · have hexec : exec (.trialWindowExpiry i) s = .next (s.onLine i fun l => l.failAttempt i s.time) := by
      refine (take_of_running hr _).trans ?_
      simp only [hst, Option.isSome_iff_ne_none.2 htimer, and_self, if_true]
    obtain ⟨t, ht, htakes⟩ := lineTakes_of (fun l => l.failAttempt i s.time) hexec rfl
    refine ⟨t, ht, fun n l1 hn hl1 => htakes.of_eq ?_⟩
    rw [hl1, hn]
    rfl
  · have hdisc : (s.line i).discovering = true := decide_eq_true hst
    have hexec : exec (.discoveryTimeoutExpiry i) s =
        .next (s.onLine i fun l => l.failDiscovery i s.time .timeout) := by
      refine (take_of_running hr _).trans ?_
      simp only [hdisc, Option.isSome_iff_ne_none.2 htimer, and_self, if_true]
    exact lineTakes_of (fun l => l.failDiscovery i s.time .timeout) hexec rfl

end Sys2Proof.Machine
end

section
/-! PROOF. The transmitter's happenings (O30, O31, O33), the drain limit (O32), the receive writer's characters and the
answers of the wind-up (O42, O45). -/

namespace Sys2Proof.Machine

variable {s t : State} {i : LineNo} {l : Line}

/-! ### The commands of the transmitter and of the buffers -/

theorem exec_dataCharacterSent (hr : s.resetHeld = false) {bits : List Bool} (ho : (s.line i).tx.output = .data bits) :
    exec (.dataCharacterSent i) s = .next (s.onLine i fun l => l.dataSent i s.time) := by
  show execDataCharacterSent i s = _
  rw [execDataCharacterSent, take_of_running hr]
  simp only [ho]

theorem exec_flowCharacterEnds (hr : s.resetHeld = false) {c : FlowChar} {bits : List Bool}
    (ho : (s.line i).tx.output = .flow c bits) :
    exec (.flowCharacterEnds i) s = .next (s.onLine i fun l => l.flowSent i s.time) := by
  show execFlowCharacterEnds i s = _
  rw [execFlowCharacterEnds, take_of_running hr]
  simp only [ho]

theorem exec_dataReadEnds (hr : s.resetHeld = false) {n : Nat} {x : Result} (hn : (s.line i).tx.readInFlight = some n)
    (hx : s.result? (.dataRead i) = some x) : exec (.dataReadEnds i) s =
      .next ((s.dropResult (.dataRead i)).onLine i fun l => l.takeRead i s.time x.data) := by
  show execDataReadEnds i s = _
  rw [execDataReadEnds, take_of_running hr]
  simp only [hn, hx]

theorem exec_chunkWriteEnds (hr : s.resetHeld = false) {n : Nat} {x : Result} (hn : (s.line i).rx.inFlight = some n)
    (hx : s.result? (.chunk i) = some x) : exec (.chunkWriteEnds i) s =
      .next ((s.dropResult (.chunk i)).onLine i fun l => l.takeChunk i s.time n x.data.isSome) := by
  show execChunkWriteEnds i s = _
  rw [execChunkWriteEnds, take_of_running hr]
  simp only [hn, hx]

/-- The writer takes a CHARACTER entry for a valid front record (R58). -/
theorem exec_takeCharacterEntry (hr : s.resetHeld = false) {v : Byte} {pe fe loss : Bool} {es : List FifoEntry}
    (hf : (s.line i).rx.fifo = .char v pe fe loss :: es) : exec (.takeCharacterEntry i) s = .next
      (if (s.line i).writerMayTake = true ∧ (s.line i).frontValid = true then
        s.onLine i fun l => l.popFifo.flowFall.takeChar i s.time v pe fe loss else s) := by
  show execTakeCharacterEntry i s = _
  rw [execTakeCharacterEntry, take_of_running hr]
  simp only [hf]

theorem endRecord_some {c : TxCurrent} (hc : l.tx.cur = some c) (i : LineNo) (time : Word) (st : Status) :
    l.endRecord i time st = { l with tx := { l.tx with
      st := .idle, cur := none, ending := none, fifo := []
      slot := if c.record.quiet = true ∧ st = .ok then l.tx.slot
        else some { dest := l.set.boundCq, time := time, body := .txDone i c.record.tag c.bytesSent st } } } := by
  simp [Line.endRecord, hc]

/-- The aborts of a current record, by what is on the output (R8, R96). -/
theorem abortCurrent_some {c : TxCurrent} (hc : l.tx.cur = some c) (i : LineNo) (time : Word) :
    l.abortCurrent i time = match l.tx.output with
      | .data _ => l.endAfterOutput i time .aborted
      | .flow _ _ => l.endAfterOutput i time .aborted
      | .brk => l.stopBreak.endRecord i time .aborted
      | .mark => l.endRecord i time .aborted := by
  cases ho : l.tx.output <;> simp only [Line.abortCurrent, hc, ho]

/-- The front record decides what the writer needs of it: it is there, and valid (R58). -/
theorem frontValid_iff (l : Line) : l.frontValid = true ↔ l.rx.bufs.head?.map RxBuf.isInvalid = some false := by
  cases h : l.rx.bufs.head? <;> simp [Line.frontValid, h]

theorem startBuffer_started {b : RxBuf} {rest : List RxBuf} {n : Nat} {e : ErrorSet} {f : Option Nat}
    (hb : l.rx.bufs = b :: rest) (hc : b.cond = .started n e f) : l.startBuffer = l := by
  simp [Line.startBuffer, hb, hc]

/-! ### The settled statements -/

/-- Settles O30: a data character sent goes by what is to end the record. -/
theorem dataCharacterEndsItsRecord : Obligations.DataCharacterEndsItsRecord := by
  unfold Obligations.DataCharacterEndsItsRecord
  intro s i l bits c hr hl ho hc
  subst hl
  refine ⟨_, _, exec_dataCharacterSent hr ho, onLine_takes s i _, fun l1 hl1 ended hended => ?_⟩
  have hend : ∀ st, l1.endRecord i s.time st = ended st := fun st => by
    have hcur : l1.tx.cur = some { c with bytesSent := c.bytesSent + 1 } := by rw [hl1]
    rw [hended, endRecord_some hcur, hl1]
  have hsent : (s.line i).dataSent i s.time = match (s.line i).tx.ending with
      | some st => l1.endRecord i s.time st
      | none => if c.bytesSent + 1 = c.record.len then
          if c.record.breakAfter then l1.enterBreak else l1.endRecord i s.time .ok
        else l1 := by
    rw [hl1]
    simp only [Line.dataSent, hc, Option.map_some, TxCurrent.oneSent]
    cases (s.line i).tx.ending <;> rfl
  cases hending : (s.line i).tx.ending with
  | some st => simp only [hsent, hending, hend]
  | none =>
    simp only [hsent, hending, hend]
    by_cases hlen : c.bytesSent + 1 = c.record.len
    · rw [if_pos hlen, if_neg (not_not.2 hlen)]
      split
      · rw [hl1]; rfl
      · rfl
    · rw [if_neg hlen, if_pos hlen]

/-- Settles O31: each end is one happening of the line. -/
theorem outputAndPauseEnd : Obligations.OutputAndPauseEnd := by
  unfold Obligations.OutputAndPauseEnd
  intro s i l hr hl
  subst hl
  refine ⟨fun ch bits ho => ?_, fun c hst htimer hc => ?_, fun htimer => ?_⟩
  · refine lineTakes_of _ (exec_flowCharacterEnds hr ho) ?_
    unfold Line.flowSent
    cases (s.line i).tx.ending <;> rfl
  · have hexec : exec (.breakTimerExpiry i) s =
        .next (s.onLine i fun l => l.stopBreak.endRecord i s.time .ok) := by
      refine (take_of_running hr _).trans (congrArg _ (if_pos ⟨hst, Option.isSome_iff_ne_none.2 htimer⟩))
    refine lineTakes_of _ hexec ?_
    have hcur : (s.line i).stopBreak.tx.cur = some c := hc
    rw [endRecord_some hcur]
    simp only [and_true]
    rfl
  · have hexec : exec (.pauseLimitExpiry i) s = .next (s.onLine i fun l => l.pauseExpire i s.time) :=
      (take_of_running hr _).trans (congrArg _ (if_pos (Option.isSome_iff_ne_none.2 htimer)))
    obtain ⟨t, ht, htakes⟩ := lineTakes_of (fun l => l.pauseExpire i s.time) hexec rfl
    refine ⟨t, ht, fun l1 hl1 => htakes.of_eq ?_⟩
    rw [hl1]
    rfl

/-- Settles O32: the aborts of R8, by what is on the output. -/
theorem drainLimitCarriesOutTheAborts : Obligations.DrainLimitCarriesOutTheAborts := by
  unfold Obligations.DrainLimitCarriesOutTheAborts
  intro s i l hr hl hdrain htimer
  subst hl
  have hexec : exec (.drainLimitExpiry i) s = .next (s.onLine i fun l => l.abort i s.time) :=
    (take_of_running hr _).trans (congrArg _ (if_pos ⟨hdrain, Option.isSome_iff_ne_none.2 htimer⟩))
  refine ⟨_, _, hexec, onLine_takes s i _, fun l1 hl1 => ?_⟩
  have habort : (s.line i).abort i s.time = l1.abortCurrent i s.time := by rw [hl1]; rfl
  have htx : l1.tx.cur = (s.line i).tx.cur ∧ l1.tx.output = (s.line i).tx.output ∧
      l1.tx.ending = (s.line i).tx.ending := by rw [hl1]; exact ⟨rfl, rfl, rfl⟩
  obtain ⟨hcur, hout, hending⟩ := htx
  refine ⟨fun hnone => ?_, fun c hc => ?_⟩
  · simp only [habort, Line.abortCurrent, hcur, hnone]
  · rw [habort, abortCurrent_some (hcur.trans hc), hout, ← hending]
    cases (s.line i).tx.output <;> rfl

/-- Settles O33: the data join the FIFO of a record still current, a failed read ends it, and without one both are
discarded. -/
theorem dataReadFillsTheFifo : Obligations.DataReadFillsTheFifo := by
  unfold Obligations.DataReadFillsTheFifo
  intro s i l n x hr hl hn hx
  subst hl
  refine ⟨_, _, exec_dataReadEnds hr hn hx, onLine_takes (s.dropResult (.dataRead i)) i _, fun l1 hl1 => ?_⟩
  have hline : (s.dropResult (.dataRead i)).line i = s.line i := rfl
  rw [hline]
  refine ⟨fun hno => ?_, fun c hc hend => ⟨fun bs hbs => ?_, fun hdata ⟨bits, ho⟩ => ?_, fun hdata ho => ?_⟩⟩
  · rw [hl1]
    rcases hno with h | h
    · simp [Line.takeRead, h]
    · obtain ⟨st, hst⟩ := Option.ne_none_iff_exists'.1 h
      simp [Line.takeRead, hst]
  · rw [hl1]
    simp only [Line.takeRead, hc, hend, hbs]
  · rw [hl1]
    simp only [Line.takeRead, hc, hend, hdata, ho, Line.endAfterOutput, endingStatus_none]
  · rw [hl1]
    simp only [Line.takeRead, hc, hend, hdata]

/-- Settles O42: the writer's conditions, then the front record that is started or goes on. -/
theorem writerTakesCharacters : Obligations.WriterTakesCharacters := by
  unfold Obligations.WriterTakesCharacters
  intro s i l v pe fe loss es hr hl hf
  subst hl
  have hexec := exec_takeCharacterEntry hr hf
  simp only [writerMayTake_iff, frontValid_iff] at hexec
  split
  next h =>
    obtain ⟨hstate, hslot, hvalid, hroom⟩ := h
    rw [if_pos ⟨⟨hstate, hslot, by simp [hvalid], hroom⟩, hvalid⟩] at hexec
    refine ⟨_, ((s.line i).popFifo.flowFall).startBuffer, hexec, fun l0 hl0 => ?_, onLine_takes s i _⟩
    rw [popFifo_cons hf, ← hl0]
    have hrx : l0.rx = { (s.line i).rx with fifo := es } := by rw [hl0, flowFall_rx]
    refine ⟨fun b rest n e f hb hc => ?_, fun b rest hb hc => ?_⟩
    · exact startBuffer_started (by rw [hrx]; exact hb) hc
    · rw [startBuffer_waiting (by rw [hrx]; exact hb) hc, hrx]
  next h =>
    rwa [if_neg] at hexec
    rintro ⟨⟨hstate, hslot, _, hroom⟩, hvalid⟩
    exact h ⟨hstate, hslot, hvalid, hroom⟩

/-- Settles O45: the wind-up's answers by the front record, and the two ends of a chunk write. -/
theorem buffersAnsweredAndWritten : Obligations.BuffersAnsweredAndWritten := by
  unfold Obligations.BuffersAnsweredAndWritten
  intro s i l hr hl
  subst hl
  refine ⟨fun hwind hslot b rest hb => ?_, fun n x hn hx => ?_⟩
  · have hexec : exec (.windUpBufferAnswer i) s = .next (s.onLine i fun l => l.answerBuffer i s.time) := by
      rw [exec_windUpBufferAnswer hr, if_pos ⟨hwind, hslot, by simp [hb]⟩]
    refine ⟨fun n e f hc => lineTakes_of _ hexec ?_, fun hc => lineTakes_of _ hexec ?_⟩
    · simp only [Line.answerBuffer, hb, hc, releaseHold_closeBuffer_started hb hc]
    · simp only [Line.answerBuffer, hb, hc, Line.answerFront, Line.rxDone]
  · refine ⟨_, _, exec_chunkWriteEnds hr hn hx, onLine_takes (s.dropResult (.chunk i)) i _, fun hok => ?_,
      fun c k tag count reason e f d hbad hslot hbody => ?_, fun b rest m e f hbad hslot hb hc => ?_⟩
    · simp only [Line.takeChunk, Option.isSome_iff_ne_none.2 hok, if_true]
      rfl
    · have hslot' : ((s.dropResult (.chunk i)).line i).rx.slot = some c := hslot
      simp only [Line.takeChunk, hbad, Option.isSome_none, Bool.false_eq_true, if_false, hslot', hbody]
      rfl
    · have hslot' : ((s.dropResult (.chunk i)).line i).rx.slot = none := hslot
      have hb' : ((s.dropResult (.chunk i)).line i).rx.bufs = b :: rest := hb
      simp only [Line.takeChunk, hbad, Option.isSome_none, Bool.false_eq_true, if_false, hslot', hb', hc]
      rfl

end Sys2Proof.Machine
end

section
/-! PROOF. The ends of a line's fetches (O13, O36, O37) and the end of its wind-up (O46). -/

namespace Sys2Proof.Machine

variable {s t : State} {i : LineNo} {l : Line}

/-! ### FETCH_ENDS of a line's queue -/

/-- A fetch's result waits to be taken by the queue's consumer. -/
theorem fetchResult_of {q : RqNo} {x : Result} (hf : (s.rq q).fetch = true) (hx : s.result? (.fetch q) = some x) :
    s.fetchResult? q = some x := by
  rw [State.fetchResult?, if_pos hf, hx]

theorem exec_fetchEnds_rpq (hr : s.resetHeld = false) {x : Result} {r : List Byte} (hf : (s.rq (rpq i)).fetch = true)
    (hx : s.result? (.fetch (rpq i)) = some x) (hd : x.data = some r) : exec (.fetchEnds (rpq i)) s =
      .next (((s.dropResult (.fetch (rpq i))).endFetch (rpq i)).deliverRx i r) := by
  show execFetchEnds (rpq i) s = _
  rw [execFetchEnds, take_of_running hr]
  simp only [fetchResult_of hf hx, rqKind_rpq, hd]

theorem exec_fetchEnds_txq (hr : s.resetHeld = false) {x : Result} {r : List Byte} (hf : (s.rq (txq i)).fetch = true)
    (hx : s.result? (.fetch (txq i)) = some x) (hd : x.data = some r) : exec (.fetchEnds (txq i)) s =
      .next (((s.dropResult (.fetch (txq i))).endFetch (txq i)).deliverTx i r) := by
  show execFetchEnds (txq i) s = _
  rw [execFetchEnds, take_of_running hr]
  simp only [fetchResult_of hf hx, rqKind_txq, hd]

/-- A failed fetch of either queue of a line halts that queue (R163). -/
theorem exec_fetchEnds_failed (hr : s.resetHeld = false) {q : RqNo} (hq : q = txq i ∨ q = rpq i) {x : Result}
    (hf : (s.rq q).fetch = true) (hx : s.result? (.fetch q) = some x) (hd : x.data = none) :
    exec (.fetchEnds q) s = .next ((s.dropResult (.fetch q)).haltQueue q i) := by
  show execFetchEnds q s = _
  rw [execFetchEnds, take_of_running hr]
  rcases hq with rfl | rfl
  · simp only [fetchResult_of hf hx, rqKind_txq, hd]
  · simp only [fetchResult_of hf hx, rqKind_rpq, hd]

/-- A happening of line `i` in a state in which the line stands as `l`. -/
theorem onLine_takes_line {u : State} (hl : u.line i = l) (f : Line → Line) : LineTakes i u (u.onLine i f) (f l) :=
  (onLine_takes u i f).of_eq (congrArg f hl)

theorem settleLine_takes_line {u : State} (hl : u.line i = l) : LineTakes i u (u.settleLine i) l :=
  (settleLine_takes u i).of_eq hl

theorem acceptsRx_iff (l : Line) : l.acceptsRx = true ↔
    l.state = .seek ∨ l.state = .trial ∨ l.state = .opened ∨ l.draining = true := by
  simp [Line.acceptsRx, inSession, or_assoc]

theorem flushing_iff (l : Line) : l.flushing = true ↔
    l.long.isFlush = true ∧ (l.state = .seek ∨ l.state = .trial ∨ l.state = .opened) := by
  simp [Line.flushing]

theorem wantsOrdinary_iff (l : Line) (h : Nat) : l.wantsOrdinary h = true ↔
    (l.state = .opened ∧ l.long.isFlush = false) ∨
      (l.draining = true ∧ l.close.txDone = false ∧ l.close.boundary ≠ some h) := by
  simp [Line.wantsOrdinary, and_assoc]

/-- What the check at acceptance leaves of a receive post record (R54). -/
theorem checkRxBuf_rxBufOf (ws : List Window) (r : List Byte) : checkRxBuf ws (rxBufOf r) =
    { addr := recWord r 0, len := (recHalf r 4).toNat, tag := recHalf r 6
      cond := if (recHalf r 4).toNat = 0 then .invalid .badRecord
        else if rangeAllowed ws true (recWord r 0) (recHalf r 4).toNat then .waiting
        else .invalid .addressFault } := by
  unfold checkRxBuf
  by_cases h0 : (recHalf r 4).toNat = 0
  · rw [if_pos (show (rxBufOf r).len = 0 from h0), if_pos h0]
    rfl
  · rw [if_neg (show ¬ (rxBufOf r).len = 0 from h0), if_neg h0]
    by_cases ha : rangeAllowed ws true (recWord r 0) (recHalf r 4).toNat = true
    · rw [if_pos (show rangeAllowed ws true (rxBufOf r).addr (rxBufOf r).len = true from ha), if_pos ha]
      rfl
    · rw [if_neg (show ¬ rangeAllowed ws true (rxBufOf r).addr (rxBufOf r).len = true from ha), if_neg ha]
      rfl

/-- Settles O36: the record's acceptance by the queue and by the line, and its check. -/
theorem receivePostAccepted : Obligations.ReceivePostAccepted := by
  unfold Obligations.ReceivePostAccepted
  intro s i x r hr hf hx hd l hl b hb
  refine ⟨_, exec_fetchEnds_rpq hr hf hx hd, ?_⟩
  have hbase : (s.dropResult (.fetch (rpq i))).endFetch (rpq i) = b := hb.symm
  have hline : b.line i = l := by rw [hb, hl]; rfl
  have hrq : b.rq (rpq i) = { s.rq (rpq i) with fetch := false } := by rw [hb]; exact State.rq_setRq_self _ _ _
  have hwin : b.windows = s.windows := by rw [hb]; rfl
  rw [hbase, State.deliverRx, hrq, hline, hwin]
  by_cases he : (s.rq (rpq i)).head = (s.rq (rpq i)).tail
  · rw [if_neg (by simp [he]), if_pos (by simpa [ReqQueue.isEmpty] using he)]
    exact settleLine_takes_line hline
  rw [if_neg (show ¬ ReqQueue.isEmpty _ = true by simpa [ReqQueue.isEmpty] using he)]
  by_cases ha : l.acceptsRx = true
  · rw [if_pos ⟨he, (acceptsRx_iff l).1 ha⟩, if_pos ha, ← checkRxBuf_rxBufOf]
    exact onLine_takes_line ((advanceHead_line b _ i).trans hline) fun l =>
      { l with rx := { l.rx with bufs := l.rx.bufs ++ [checkRxBuf s.windows (rxBufOf r)] } }
  · rw [if_neg fun h => ha ((acceptsRx_iff l).2 h.2), if_neg ha]
    exact settleLine_takes_line hline

/-- Settles O37: the rows of R80 for a delivered record, and the check of one accepted in the ordinary way. -/
theorem transmitRecordAccepted : Obligations.TransmitRecordAccepted := by
  unfold Obligations.TransmitRecordAccepted
  intro s i x r hr hf hx hd l hl b hb answered hanswered
  refine ⟨_, exec_fetchEnds_txq hr hf hx hd, ?_⟩
  have hbase : (s.dropResult (.fetch (txq i))).endFetch (txq i) = b := hb.symm
  have hline : b.line i = l := by rw [hb, hl]; rfl
  have hadv : (b.advanceHead (txq i)).line i = l := (advanceHead_line b _ i).trans hline
  have hrq : b.rq (txq i) = { s.rq (txq i) with fetch := false } := by rw [hb]; exact State.rq_setRq_self _ _ _
  have htime : b.time = s.time := by rw [hb]; rfl
  have hwin : b.windows = s.windows := by rw [hb]; rfl
  have hans : ∀ st, l.answerTx i s.time (recHalf r 6) st = answered st := fun st => by rw [hanswered]; rfl
  rw [hbase, State.deliverTx, hrq]
  dsimp only
  rw [hline, htime, hwin]
  by_cases he : (s.rq (txq i)).head = (s.rq (txq i)).tail
  · rw [if_pos he, if_pos (by simpa [ReqQueue.isEmpty] using he)]
    exact settleLine_takes_line hline
  rw [if_neg he, if_neg (show ¬ ReqQueue.isEmpty _ = true by simpa [ReqQueue.isEmpty] using he)]
  simp only [← flushing_iff, ← wantsOrdinary_iff]
  by_cases hfl : l.flushing = true
  · rw [if_pos hfl, if_pos hfl, ← hans]
    exact onLine_takes_line hadv fun l => l.answerTx i s.time (txRecordOf r).tag .flushed
  rw [if_neg hfl, if_neg hfl]
  by_cases hw : l.wantsOrdinary (s.rq (txq i)).head = true
  · rw [if_pos hw, if_pos hw, ← hans, ← hans]
    exact onLine_takes_line hadv fun l => l.acceptTx i s.time s.windows (txRecordOf r)
  · rw [if_neg hw, if_neg hw]
    exact settleLine_takes_line hline

/-! ### A halt and its restart -/

theorem ringEntry_txq (i : LineNo) : ringEntry (txq i) = 16 := if_neg (txq_ne_zero i)

theorem ringEntry_rpq (i : LineNo) : ringEntry (rpq i) = 16 := if_neg (rpq_ne_zero i)

/-- RESTART_QUEUE, on a record accepted (R165). -/
theorem exec_restartQueue {r : List Byte} (h : ControlDelivered s r) (hc : (reqCode r).toNat = 10) :
    exec .restartQueue s = .next (requestRestartQueue r s.acceptControl).askCtl :=
  takeControl_of_delivered h (· = 10) requestRestartQueue (decide_eq_true hc)

/-- A halted queue restarts: both fetches of its line are asked for (R165). -/
theorem askRestarted_line (s : State) {q : RqNo} (hq : q = txq i ∨ q = rpq i) : s.askRestarted q = s.askFetches i := by
  rcases hq with rfl | rfl
  · simp only [State.askRestarted, rqKind_txq]
  · simp only [State.askRestarted, rqKind_rpq]

/-- Settles O13: the halt as a happening of the line, and the restart by the queue that the request names. -/
theorem failedFetchHaltsUntilRestart : Obligations.FailedFetchHaltsUntilRestart := by
  unfold Obligations.FailedFetchHaltsUntilRestart
  refine ⟨fun s i q x l hr hq hf hx hd hl => ?_, fun s r hdel hcode a ha => ?_⟩
  · subst hl
    exact ⟨_, exec_fetchEnds_failed hr hq hf hx hd, onLine_takes_line rfl _⟩
  have hexec := exec_restartQueue hdel hcode
  rw [← ha] at hexec
  refine ⟨fun hbig => ?_, fun q hq => ?_⟩
  · rw [hexec, requestRestartQueue, if_pos hbig, askCtl_answer]
  have hle : ¬ 16 < (recByte r 4).toNat := by omega
  have hno : (Fin.ofNat 17 (recByte r 4).toNat : RqNo) = q := Fin.ext (by simp [Fin.ofNat, hq])
  refine ⟨fun hrun => ?_, fun hhalt => ?_⟩
  · rw [hexec, requestRestartQueue, if_neg hle]
    simp only [hno, hrun, Bool.false_eq_true, if_false, askCtl_answer]
  have hreq : requestRestartQueue r a = ((a.answer r .ok).setRq q { a.rq q with halted := false }).askRestarted q := by
    rw [requestRestartQueue, if_neg hle]
    simp only [hno, hhalt, if_true]
  rw [hreq] at hexec
  refine ⟨_, hexec, fun b hb => ?_⟩
  rw [← hb]
  have hslot : b.control.slot ≠ none := by rw [hb]; exact Option.some_ne_none _
  refine ⟨fun h0 => ?_, fun i hqi x y hx hy => ?_⟩
  · subst h0
    exact askCtl_of_slot hslot
  obtain ⟨heq, hfetch⟩ := askFetches_takes b i
  have hask : ((b.askRestarted q).askCtl : State) = b.askFetches i := by
    rw [askRestarted_line b hqi]
    exact askCtl_of_slot (by rw [heq]; exact hslot)
  have hline : b.line i = a.line i := by rw [hb]; rfl
  have hengine : b.engine = a.engine := by rw [hb]; rfl
  rw [hask, ← hline]
  refine ⟨?_, fun p hp hp' => ?_, ?_, ?_⟩
  · rw [hengine] at heq
    simpa only [State.lineFetches, State.fetchRequest, ringEntry_txq, ringEntry_rpq, ← hx, ← hy, List.append_assoc]
      using heq
  · rw [hfetch p]
    simp [hp, hp']
  · rw [hfetch, hx]
    simp [Ne.symm (txq_ne_rpq i i)]
  · rw [hfetch, hy]
    simp [txq_ne_rpq i i]

/-! ### The end of a wind-up -/

theorem allWritten_iff (s : State) (i : LineNo) :
    s.allWritten i = true ↔ ∀ c : CqNo, ∀ e ∈ (s.cq c).staging, producerOfLine i e.producer = false := by
  simp [State.allWritten, State.cq, Fin.forall_iff]

theorem windUpDone_iff (s : State) (i : LineNo) : s.windUpDone i = true ↔
    (s.line i).windingUp = true ∧ (s.line i).rx.bufs = [] ∧ (s.line i).rx.slot = none ∧ (s.line i).tx.slot = none ∧
      (s.line i).events = [] ∧ (s.line i).tx.output = .mark ∧
      (∀ c : CqNo, ∀ e ∈ (s.cq c).staging, producerOfLine i e.producer = false) ∧
      (s.rq (txq i)).fetch = false ∧ (s.rq (rpq i)).fetch = false := by
  rw [← allWritten_iff]
  simp [State.windUpDone, and_assoc]

/-- Settles O46: the wait of R9, and the final records in the order taken. -/
theorem windUpEndsTheClose : Obligations.WindUpEndsTheClose := by
  unfold Obligations.WindUpEndsTheClose
  intro s i l waited hr hl hwaited
  subst hl
  rw [← windUpDone_iff] at hwaited
  have hexec : exec (.windUpEnd i) s = .next (if s.windUpDone i = true then
      s.updLine i fun l => l.finishClose i s.time (decide (s.part = .stopping)) else s) := take_of_running hr _
  refine ⟨fun hno => ?_, fun hyes done hdone => ?_⟩
  · rw [hexec, if_neg (mt hwaited.2 hno)]
  · obtain ⟨_, hbufs, _, _, hevents, _⟩ := (windUpDone_iff s i).1 (hwaited.1 hyes)
    rw [hexec, if_pos (hwaited.1 hyes), State.updLine, Line.finishClose, hevents, List.nil_append, Line.finalRecords]
    rcases (s.line i).long with _ | _ | ⟨_ | _, _⟩ | _ <;> cases (s.line i).close.failure <;>
      simp only [longRecords, longDone, hdone, hbufs, Line.event, decide_eq_true_eq]

end Sys2Proof.Machine
end

section
/-! PROOF. What a line does at once after a happening (O52). -/

namespace Sys2Proof.Machine

variable {s t : State} {i : LineNo} {l : Line}

/-! ### The conditions of a line's requests -/

theorem draining_iff (l : Line) : l.draining = true ↔ l.state = .closing ∧ l.close.phase = some .drain := by
  simp [Line.draining]

theorem isFlush_iff (p : PendingLong) : p.isFlush = true ↔ ∃ tag, p = .flushTx tag := by
  cases p <;> simp [PendingLong.isFlush]

theorem isFlush_eq_false_iff (p : PendingLong) : p.isFlush = false ↔ ∀ tag, p ≠ .flushTx tag := by
  cases p <;> simp [PendingLong.isFlush]

theorem fetchable_iff (x : ReqQueue) : x.fetchable = true ↔ x.head ≠ x.tail ∧ x.halted = false ∧ x.fetch = false := by
  simp [ReqQueue.fetchable, ReqQueue.isEmpty, and_assoc]

theorem wantsFlush_iff (l : Line) (h : Nat) : l.wantsFlush h = true ↔
    (∃ tag, l.long = .flushTx tag) ∧ (l.state = .seek ∨ l.state = .trial ∨ l.state = .opened) ∧
      l.tx.flushDue = none ∧ l.tx.flushBoundary ≠ some h := by
  simp [Line.wantsFlush, Line.flushing, isFlush_iff, and_assoc]

theorem asksRpq_iff (l : Line) (x : ReqQueue) : l.asksRpq x = true ↔
    (l.state = .seek ∨ l.state = .trial ∨ l.state = .opened ∨
      (l.state = .closing ∧ l.close.phase = some .drain ∧ l.rx.fifo ≠ [])) ∧
    l.rx.bufs.length < 4 ∧ x.head ≠ x.tail ∧ x.halted = false ∧ x.fetch = false := by
  rw [← fetchable_iff]
  simp [Line.asksRpq, draining_iff, and_assoc, or_assoc]

theorem asksTxq_iff (l : Line) (x : ReqQueue) : l.asksTxq x = true ↔
    l.tx.st = .idle ∧ l.tx.cur = none ∧ l.tx.slot = none ∧
    ((l.state = .opened ∧ ∀ tag, l.long ≠ .flushTx tag) ∨
      (l.state = .closing ∧ l.close.phase = some .drain ∧ l.close.txDone = false ∧ l.close.boundary ≠ some x.head) ∨
      ((∃ tag, l.long = .flushTx tag) ∧ (l.state = .seek ∨ l.state = .trial ∨ l.state = .opened) ∧
        l.tx.flushDue = none ∧ l.tx.flushBoundary ≠ some x.head)) ∧
    x.head ≠ x.tail ∧ x.halted = false ∧ x.fetch = false := by
  rw [← fetchable_iff, ← wantsFlush_iff, ← isFlush_eq_false_iff]
  simp [Line.asksTxq, wantsOrdinary_iff, draining_iff, and_assoc, or_assoc]

theorem dataMayStart_iff (l : Line) :
    l.dataMayStart = true ↔ l.tx.st = .sending ∧ l.tx.ending = none ∧ l.flow.peerPaused = false := by
  simp [Line.dataMayStart, and_assoc]

/-! ### The steps of settling, as equations -/

theorem chunkIssued_eq (l : Line) : l.chunkIssued =
    if l.rx.inFlight = none ∧ l.rx.chunk ≠ [] ∧ (16 ≤ l.rx.chunk.length ∨ l.rx.slot ≠ none) then
      { l with rx := { l.rx with
        chunk := l.rx.chunk.drop 16
        chunkAddr := l.rx.chunkAddr + BitVec.ofNat 32 (min 16 l.rx.chunk.length)
        inFlight := some (min 16 l.rx.chunk.length) } }
    else l := by
  simp only [Line.chunkIssued, chunkDue_iff, List.length_take]

theorem readRequested_eq (l : Line) : l.readRequested = match l.tx.cur with
    | some c =>
      if l.tx.st = .sending ∧ l.tx.ending = none ∧ l.tx.readInFlight = none ∧ l.tx.fifo.length ≤ 16 ∧
          c.bytesRead < c.record.len then
        { l with tx := { l.tx with readInFlight := some (min 16 (c.record.len - c.bytesRead)) } }
      else l
    | none => l := by
  unfold Line.readRequested
  cases hc : l.tx.cur with
  | none => rfl
  | some c => simp only [readDue_iff l c hc, TxCurrent.nextRead]

theorem flushEnded_eq (l : Line) (q : ReqQueue) : l.flushEnded q = { l with tx := { l.tx with
    flushDue := if l.flushing = true ∧ l.tx.flushPhase = some .fetching ∧ l.tx.slot = none ∧ q.fetch = false ∧
        l.tx.flushDue = none then
      if l.tx.flushBoundary = some q.head then some .ok
      else if q.halted then some .queueState
      else none
    else l.tx.flushDue } } := by
  unfold Line.flushEnded
  by_cases h : l.flushing = true ∧ l.tx.flushPhase = some .fetching ∧ l.tx.slot = none ∧ q.fetch = false ∧
      l.tx.flushDue = none
  · rw [if_pos h, if_pos h]
    obtain ⟨_, _, _, _, hdue⟩ := h
    split
    · rfl
    · split
      · rfl
      · rw [← hdue]
  · rw [if_neg h, if_neg h]

theorem chooseOutput_rows (l : Line) : l.chooseOutput =
    if l.tx.output ≠ .mark then l
    else match l.flow.slot, (decide (l.state = .opened) || l.draining) && decide (l.tx.st ≠ .brk), l.tx.fifo with
      | some c, true, _ => { l with
          flow := { l.flow with slot := none }
          tx := { l.tx with output := .flow c (l.frame.wireBits (match c with
            | .pause => l.set.pauseValue
            | .resume => l.set.resumeValue)) } }
      | _, _, v :: rest =>
        if l.tx.st = .sending ∧ l.tx.ending = none ∧ l.flow.peerPaused = false then
          { l with tx := { l.tx with output := .data (l.frame.wireBits v), fifo := rest } }
        else l
      | _, _, [] => l := by
  have hdata : (if l.dataMayStart = true then l.startData else l) = match l.tx.fifo with
      | v :: rest =>
        if l.tx.st = .sending ∧ l.tx.ending = none ∧ l.flow.peerPaused = false then
          { l with tx := { l.tx with output := .data (l.frame.wireBits v), fifo := rest } }
        else l
      | [] => l := by
    cases hf : l.tx.fifo with
    | nil => simp [Line.startData, hf]
    | cons v rest => simp only [Line.startData, hf, dataMayStart_iff]
  unfold Line.chooseOutput
  by_cases ho : l.tx.output = .mark
  · rw [if_pos ho, if_neg (not_not.2 ho), hdata]
    cases hs : l.flow.slot with
    | none => cases l.tx.fifo <;> rfl
    | some c =>
      by_cases hc : (l.state = .opened ∨ l.draining = true) ∧ l.tx.st ≠ .brk
      · have hb : ((decide (l.state = .opened) || l.draining) && decide (l.tx.st ≠ .brk)) = true := by simpa using hc
        simp only [if_pos hc, hb]
        cases c <;> rfl
      · have hb : ((decide (l.state = .opened) || l.draining) && decide (l.tx.st ≠ .brk)) = false := by
          rw [← Bool.not_eq_true]
          simpa using hc
        simp only [if_neg hc, hb]
        cases l.tx.fifo <;> rfl
  · rw [if_neg ho, if_pos ho]

/-- Settles O52: the requests of `LineTakes`, their conditions, and the steps of settling in their order. -/
theorem lineMakesItsRequests : Obligations.LineMakesItsRequests := by
  unfold Obligations.LineMakesItsRequests
  refine ⟨fun s i l t hl ht => ?_, fun s t i l h => ?_, fun l x => ⟨asksRpq_iff l x, asksTxq_iff l x⟩,
    fun l l1 l2 l3 l4 l5 l6 i time q due h1 h2 h3 h4 h5 h6 hdue => ?_, chooseOutput_rows⟩
  · subst hl ht
    exact settleLine_takes s i
  · obtain ⟨_, _, _, he⟩ := h
    rw [he]
    refine ⟨rfl, rfl, ?_, ?_⟩
    · unfold Line.readRequests
      cases l.tx.cur <;> rfl
    · simp only [State.lineFetches, State.fetchRequest, ringEntry_txq, ringEntry_rpq, List.append_assoc]
  · have e1 : l.chunkIssued.chooseOutput = l1 := by rw [h1, chunkIssued_eq]
    have e2 : l1.readRequested = l2 := by
      refine (readRequested_eq l1).trans (Eq.trans ?_ h2.symm)
      cases l1.tx.cur <;> rfl
    have e3 : l2.beginWindUp = l3 := h3.symm
    have e4 : l3.markTxDone q = l4 := h4.symm
    have e5 : l4.endDrain = l5 := h5.symm
    have e6 : l5.flushFetching = l6 := h6.symm
    have e7 : l6.flushEnded q = { l6 with tx := { l6.tx with flushDue := due } } := by rw [flushEnded_eq, hdue]
    rw [Line.settled, e1, e2, e3, e4, e5, flushStep_eq_steps, e6, e7]
    unfold Line.flushAnswered
    cases l6.long <;> cases due <;> rfl

end Sys2Proof.Machine
end

section
/-! PROOF. The bits of a character (O24): what a sampled frame gives, and the round trip of a sent character. -/

namespace Sys2Proof.Machine

/-! ### Data bits and parity -/

/-- Bit `k` of a value is the `k`-th of its data bits (R18). -/
theorem valueOf_getLsbD (data : List Bool) (k : Nat) (hk : k < 8) : (valueOf data).getLsbD k = data.getD k false := by
  induction data generalizing k with
  | nil => simp [valueOf]
  | cons b ds ih =>
    have hcons : valueOf (b :: ds) = (valueOf ds <<< 1) ||| (if b then 1#8 else 0#8) := rfl
    rw [hcons, BitVec.getLsbD_or, BitVec.getLsbD_shiftLeft]
    cases k with
    | zero => cases b <;> simp
    | succ k =>
      have h1 : (if b then 1#8 else 0#8 : Byte).getLsbD (k + 1) = false := by
        cases b <;> simp [BitVec.getLsbD_one]
      rw [h1, Nat.add_sub_cancel, ih k (by omega)]
      simp [hk]

/-- The parity of data bits is the parity of the number of ones. -/
theorem foldl_xor_eq (data : List Bool) (b : Bool) : data.foldl xor b = (b ^^ decide (data.count true % 2 = 1)) := by
  induction data generalizing b with
  | nil => simp
  | cons x xs ih =>
    rw [List.foldl_cons, ih]
    rcases Nat.mod_two_eq_zero_or_one (xs.count true) with h | h <;> cases x <;> cases b <;> simp [h] <;>
      omega

/-- A parity bit is wrong by the number of ones in the data bits and itself (R18). -/
theorem parity_wrong_iff (p : Parity) (data : List Bool) (b : Bool) : p ≠ .noParity →
    ((b != requiredParity p data) = true ↔ match p with
      | .noParity => False
      | .even => (data ++ [b]).count true % 2 = 1
      | .odd => (data ++ [b]).count true % 2 = 0
      | .mark => b = false
      | .space => b = true) := by
  intro hp
  have hcount : (data ++ [b]).count true = data.count true + if b then 1 else 0 := by
    cases b <;> simp
  cases p with
  | noParity => exact absurd rfl hp
  | even =>
    simp only [requiredParity, foldl_xor_eq, hcount]
    rcases Nat.mod_two_eq_zero_or_one (data.count true) with h | h <;> cases b <;> simp [h] <;> omega
  | odd =>
    simp only [requiredParity, foldl_xor_eq, hcount]
    rcases Nat.mod_two_eq_zero_or_one (data.count true) with h | h <;> cases b <;> simp [h] <;> omega
  | mark => cases b <;> simp [requiredParity]
  | space => cases b <;> simp [requiredParity]

variable {f : Frame}

theorem parityBits_of_noParity (h : f.parity = .noParity) : f.parityBits = 0 := if_pos h

theorem parityBits_of_parity (h : f.parity ≠ .noParity) : f.parityBits = 1 := if_neg h

/-- The data bits with the parity bit after them. -/
theorem take_succ_data {bits : List Bool} {n : Nat} (h : 1 + n < bits.length) :
    (bits.drop 1).take (n + 1) = (bits.drop 1).take n ++ [bits.getD (1 + n) false] := by
  rw [List.take_add_one]
  simp [List.getElem?_eq_getElem h, List.getD_eq_getElem?_getD, Nat.add_comm n 1]

/-- A frame with a parity bit holds one bit there. -/
theorem take_parity {bits : List Bool} {n : Nat} (h : n < bits.length) :
    (bits.drop n).take 1 = [bits.getD n false] := by
  rw [List.take_one, List.head?_drop, List.getD_eq_getElem?_getD, List.getElem?_eq_getElem h]
  rfl

/-- A value masked to its low bits. -/
theorem maskData_getLsbD (n : Nat) (v : Byte) (k : Nat) (hk : k < 8) :
    (maskData n v).getLsbD k = (v.getLsbD k && decide (k < n)) := by
  rw [maskData, BitVec.getLsbD_and, BitVec.getLsbD_ofNat, Nat.testBit_two_pow_sub_one]
  simp [hk]

/-- The data bits that are sent give the value back, masked to them (R18). -/
theorem valueOf_dataOf (f : Frame) (v : Byte) : valueOf (f.dataOf v) = maskData f.dataBits v := by
  refine BitVec.eq_of_getLsbD_eq fun k hk => ?_
  rw [valueOf_getLsbD _ k hk, maskData_getLsbD _ _ _ hk, List.getD_eq_getElem?_getD]
  by_cases h : k < f.dataBits <;> simp [Frame.dataOf, h]

theorem dataOf_length (f : Frame) (v : Byte) : (f.dataOf v).length = f.dataBits := by simp [Frame.dataOf]

/-- The bits of the parity bit of a sent character, if it has one. -/
def Frame.parityOf (f : Frame) (v : Byte) : List Bool :=
  if f.parity = .noParity then [] else [requiredParity f.parity (f.dataOf v)]

theorem parityOf_length (f : Frame) (v : Byte) : (f.parityOf v).length = f.parityBits := by
  unfold Frame.parityOf Frame.parityBits
  split <;> rfl

theorem wireBits_eq (f : Frame) (v : Byte) :
    f.wireBits v = false :: (f.dataOf v ++ (f.parityOf v ++ List.replicate f.stopBits true)) := by
  simp [Frame.wireBits, Frame.parityOf]

theorem wireBits_length (f : Frame) (v : Byte) : (f.wireBits v).length = f.bitCount := by
  simp only [wireBits_eq, List.length_cons, List.length_append, dataOf_length, parityOf_length, List.length_replicate,
    Frame.bitCount]
  omega

/-- Settles O24: each of the three results of a sampled frame, and the character read back from the frame that carries
it. -/
theorem frameCarriesItsCharacter : Obligations.FrameCarriesItsCharacter := by
  unfold Obligations.FrameCarriesItsCharacter
  intro f hlo hhi
  refine ⟨fun bits hlen hhead hmark => ?_, fun v hstop => ⟨wireBits_length f v, ?_⟩⟩
  · have hany : bits.any id = true := List.any_eq_true.2 ⟨true, hmark, rfl⟩
    refine ⟨_, if_pos ⟨hlen, hhead, hany⟩, fun k hk => ?_, ?_, ?_⟩
    · rw [valueOf_getLsbD _ k hk, List.getD_eq_getElem?_getD, List.getElem?_take, List.getElem?_drop,
        List.getD_eq_getElem?_getD]
      split <;> rfl
    · by_cases hp : f.parity = .noParity
      · simp [parityBits_of_noParity hp, hp]
      · have hlt : 1 + f.dataBits < bits.length := by
          rw [hlen, Frame.bitCount, parityBits_of_parity hp]
          omega
        have hwrong := parity_wrong_iff f.parity ((bits.drop 1).take f.dataBits) (bits.getD (1 + f.dataBits) false) hp
        rw [parityBits_of_parity hp, take_parity hlt, take_succ_data hlt, List.any_cons, List.any_nil, Bool.or_false]
        generalize f.parity = p at hwrong
        cases p <;> exact hwrong
    · simp only [List.any_eq_true, List.mem_iff_getElem, List.getElem_drop, List.length_drop, Bool.not_eq_true']
      constructor
      · rintro ⟨_, ⟨k, hk, rfl⟩, hfalse⟩
        refine ⟨1 + f.dataBits + f.parityBits + k, by omega, by omega, ?_⟩
        rw [List.getD_eq_getElem _ _ (by omega), hfalse]
      · rintro ⟨k, hlow, hk, hfalse⟩
        refine ⟨_, ⟨k - (1 + f.dataBits + f.parityBits), by omega, rfl⟩, ?_⟩
        rw [List.getD_eq_getElem _ _ hk] at hfalse
        simpa only [Nat.add_sub_cancel' hlow] using hfalse
  · have hmark : (f.wireBits v).any id = true := by
      refine List.any_eq_true.2 ⟨true, ?_, rfl⟩
      rw [wireBits_eq]
      simp
      omega
    have hdata : ((f.wireBits v).drop 1).take f.dataBits = f.dataOf v := by
      rw [wireBits_eq, List.drop_succ_cons, List.drop_zero, List.take_left' (dataOf_length f v)]
    have hrest : (f.wireBits v).drop (1 + f.dataBits) = f.parityOf v ++ List.replicate f.stopBits true := by
      rw [wireBits_eq, Nat.add_comm, List.drop_succ_cons, List.drop_left' (dataOf_length f v)]
    have hpar : ((f.wireBits v).drop (1 + f.dataBits)).take f.parityBits = f.parityOf v := by
      rw [hrest, List.take_left' (parityOf_length f v)]
    have hstops : (f.wireBits v).drop (1 + f.dataBits + f.parityBits) = List.replicate f.stopBits true := by
      rw [← List.drop_drop, hrest, List.drop_left' (parityOf_length f v)]
    have hpe : ((f.parityOf v).any fun b => b != requiredParity f.parity (f.dataOf v)) = false := by
      unfold Frame.parityOf
      split <;> simp
    have hfe : ((List.replicate f.stopBits true).any fun b => !b) = false := by simp
    refine (if_pos ⟨wireBits_length f v, by rw [wireBits_eq]; rfl, hmark⟩).trans ?_
    simp only [hdata, hpar, hstops, hpe, hfe, valueOf_dataOf]

end Sys2Proof.Machine
end

section
/-! PROOF. The Control Unit: the acceptance of a control record and its answer (O12), the refusals of a request that names
a line (O14), and the rate table (O15, O16). -/

namespace Sys2Proof.Machine

variable {s t a : State} {i : LineNo} {l : Line} {r : List Byte}

/-! ### A delivered record is carried out by its code -/

/-- Each request's command carries a delivered record of its code out (R111, R112). -/
theorem exec_requestCommand (h : ControlDelivered s r) :
    exec (requestCommand (reqCode r).toNat) s = .next (carryOut r s.acceptControl).askCtl := by
  generalize hn : (reqCode r).toNat = n
  unfold carryOut
  rw [hn]
  match n, hn with
  | 0, hn => exact takeControl_of_delivered h (· = 0) requestNop (decide_eq_true hn)
  | 1, hn => exact takeControl_of_delivered h (· = 1) requestSetRateTable (decide_eq_true hn)
  | 2, hn => exact takeControl_of_delivered h (· = 2) requestOpenLine (decide_eq_true hn)
  | 3, hn => exact takeControl_of_delivered h (· = 3) requestModifyLine (decide_eq_true hn)
  | 4, hn => exact takeControl_of_delivered h (· = 4) requestSetDelimiters (decide_eq_true hn)
  | 5, hn => exact takeControl_of_delivered h (· = 5) requestRediscover (decide_eq_true hn)
  | 6, hn => exact takeControl_of_delivered h (· = 6) requestFlushTx (decide_eq_true hn)
  | 7, hn => exact takeControl_of_delivered h (· = 7) requestFlushRx (decide_eq_true hn)
  | 8, hn => exact takeControl_of_delivered h (· = 8) requestCloseLine (decide_eq_true hn)
  | 9, hn => exact takeControl_of_delivered h (· = 9) requestQueryLine (decide_eq_true hn)
  | 10, hn => exact takeControl_of_delivered h (· = 10) requestRestartQueue (decide_eq_true hn)
  | k + 11, hn => exact takeControl_of_delivered h (11 ≤ ·) requestUnassigned (decide_eq_true (by omega))

/-- The request with a given code, on the accepted record. -/
theorem exec_request {c : Instr} {f : List Byte → State → State} (h : ControlDelivered s r)
    (hc : requestCommand (reqCode r).toNat = c) (hf : carryOut r s.acceptControl = f r s.acceptControl) :
    exec c s = .next (f r s.acceptControl).askCtl := by
  rw [← hc, exec_requestCommand h, hf]

/-! ### Checks in order -/

theorem firstFailure_cons (b : Bool) (st : Status) (cs : List (Bool × Status)) :
    firstFailure ((b, st) :: cs) = if b then firstFailure cs else some st := by
  cases b <;> simp [firstFailure]

theorem firstFailure_nil : firstFailure [] = none := rfl

/-! ### Answers keep their slot -/

/-- While its answer waits in its slot the Control Unit asks for no further record. -/
theorem askCtl_onLine_answer (a : State) (r : List Byte) (st : Status) (i : LineNo) (f : Line → Line) :
    ((a.answer r st).onLine i f).askCtl = (a.answer r st).onLine i f := by
  refine askCtl_of_slot ?_
  rw [(onLine_takes (a.answer r st) i f).1.1]
  exact Option.some_ne_none _

/-! ### The request's line -/

theorem withLine_noLine (al : LineState → Bool) (f : LineNo → State) (h : 8 ≤ (reqLine r).toNat) :
    withLine r a al f = a.answer r .badParam := by
  rw [withLine, reqLineNo_of_ge h]

theorem withLine_busy {al : LineState → Bool} {f : LineNo → State} (h : reqLineNo r = some i)
    (hl : (a.line i).long ≠ .noRequest) : withLine r a al f = a.answer r .lineBusy := by
  rw [withLine, h]
  exact if_pos hl

theorem withLine_state {al : LineState → Bool} {f : LineNo → State} (h : reqLineNo r = some i)
    (hl : (a.line i).long = .noRequest) (hs : al (a.line i).state = false) :
    withLine r a al f = a.answer r .lineState := by
  rw [withLine, h]
  simp [hl, hs]

theorem withLine_passes {al : LineState → Bool} {f : LineNo → State} (h : reqLineNo r = some i)
    (hl : (a.line i).long = .noRequest) (hs : al (a.line i).state = true) : withLine r a al f = f i := by
  rw [withLine, h]
  simp [hl, hs]

/-- The line that a request with a code from 2 to 9 names. -/
theorem reqLineNo_of_code (h : (reqLine r).toNat = i.val) (hc : 2 ≤ (reqCode r).toNat ∧ (reqCode r).toNat ≤ 9) :
    reqLineNo r = some i := reqLineNo_of_lt h (decide_eq_true hc)

/-- The six requests whose line is checked by `withLine`, with the states they allow. -/
theorem exec_lineRequest {c : Instr} {code : Nat} {allowed : List LineState} (hl : lineRequest c = some (code, allowed))
    (h : ControlDelivered s r) (hc : (reqCode r).toNat = code) : ∃ (al : LineState → Bool) (f : LineNo → State),
    exec c s = .next (withLine r s.acceptControl al f).askCtl ∧ (∀ x, al x = true ↔ x ∈ allowed) ∧
      2 ≤ code ∧ code ≤ 9 := by
  have hin : ∀ x, inSession x = true ↔ x ∈ [LineState.seek, .trial, .opened] := fun x => by simp [inSession]
  have hone : ∀ y x : LineState, decide (x = y) = true ↔ x ∈ [y] := fun y x => by simp
  cases c with
  | openLine =>
    cases hl
    exact ⟨_, _, takeControl_of_delivered h (· = 2) requestOpenLine (decide_eq_true hc), hone _, by omega, by omega⟩
  | modifyLine =>
    cases hl
    exact ⟨_, _, takeControl_of_delivered h (· = 3) requestModifyLine (decide_eq_true hc), hin, by omega, by omega⟩
  | setDelimiters =>
    cases hl
    exact ⟨_, _, takeControl_of_delivered h (· = 4) requestSetDelimiters (decide_eq_true hc), hin, by omega, by omega⟩
  | rediscover =>
    cases hl
    exact ⟨_, _, takeControl_of_delivered h (· = 5) requestRediscover (decide_eq_true hc), hone _, by omega, by omega⟩
  | flushTx =>
    cases hl
    exact ⟨_, _, takeControl_of_delivered h (· = 6) requestFlushTx (decide_eq_true hc), hin, by omega, by omega⟩
  | flushRx =>
    cases hl
    exact ⟨_, _, takeControl_of_delivered h (· = 7) requestFlushRx (decide_eq_true hc), hone _, by omega, by omega⟩
  | _ => cases hl

/-- Settles O14: the checks of R112 and R114 in order, for each of the six requests. -/
theorem lineRequestRefused : Obligations.LineRequestRefused := by
  unfold Obligations.LineRequestRefused
  intro c code allowed s r hl h hc
  obtain ⟨al, f, hexec, hal, hlo, hhi⟩ := exec_lineRequest hl h hc
  rw [hexec]
  refine ⟨fun hbig => ?_, fun i hi => ?_⟩
  · rw [withLine_noLine al f hbig, askCtl_answer]
  have hno : reqLineNo r = some i := reqLineNo_of_code hi (by omega)
  refine ⟨fun hlong => ?_, fun hlong hstate => ?_⟩
  · rw [withLine_busy hno (by rwa [acceptControl_line]), askCtl_answer]
  · have hs : al (s.line i).state = false := by
      rw [← Bool.not_eq_true, hal]
      exact hstate
    rw [withLine_state hno (by rwa [acceptControl_line]) (by rwa [acceptControl_line]), askCtl_answer]

/-! ### The rate table -/

/-- Settles O15: the checks of R36 in order, and the held request. -/
theorem setRateTableChecked : Obligations.SetRateTableChecked := by
  unfold Obligations.SetRateTableChecked
  intro s r h hc a ha n hn addr haddr
  have hexec : exec .setRateTable s = .next (requestSetRateTable r a).askCtl := by
    rw [ha]
    exact takeControl_of_delivered h (· = 1) requestSetRateTable (decide_eq_true hc)
  have hlines : a.lines.any Line.discovering = true ↔ ∃ i, (s.line i).state = .seek ∨ (s.line i).state = .trial := by
    rw [ha, acceptControl_lines]
    simp [Vector.any_eq_true, Line.discovering, State.line, Fin.exists_iff]
  have hwin : a.windows = s.windows := by rw [ha, acceptControl_windows]
  have hslot : a.control.slot = s.control.slot := by rw [ha, acceptControl_slot]
  rw [hexec, requestSetRateTable]
  by_cases h1 : n = 0 ∨ 12 < n
  · have hfail : firstFailure (rateTableChecks r a) = some .badParam := by
      rw [rateTableChecks, firstFailure_cons, if_neg (by simp only [decide_eq_true_eq]; omega)]
    rw [if_pos h1, hfail, askCtl_answer]
  have hn1 : 1 ≤ n ∧ n ≤ 12 := by omega
  rw [if_neg h1]
  by_cases h2 : addr.toNat % 8 = 0
  · rw [if_neg (not_not.2 h2)]
    by_cases h3 : ∃ i, (s.line i).state = .seek ∨ (s.line i).state = .trial
    · have hfail : firstFailure (rateTableChecks r a) = some .tableInUse := by
        simp only [rateTableChecks, firstFailure_cons, ← hn, ← haddr, hn1, h2, hlines.2 h3]
        rfl
      rw [if_pos h3, hfail, askCtl_answer]
    have hidle : a.lines.any Line.discovering = false := by rw [← Bool.not_eq_true, hlines]; exact h3
    rw [if_neg h3]
    cases h4 : rangeAllowed s.windows false addr (8 * n) with
    | false =>
      have hfail : firstFailure (rateTableChecks r a) = some .addressFault := by
        simp only [rateTableChecks, firstFailure_cons, ← hn, ← haddr, hn1, h2, hidle, hwin, h4]
        rfl
      rw [if_pos rfl, hfail, askCtl_answer]
    | true =>
      have hpass : firstFailure (rateTableChecks r a) = none := by
        simp only [rateTableChecks, firstFailure_cons, ← hn, ← haddr, hn1, h2, hidle, hwin, h4]
        rfl
      rw [if_neg (by simp), hpass, ← hslot, ← hn, ← haddr]
      exact congrArg Host.Outcome.next (askCtl_of_holding rfl)
  · have hfail : firstFailure (rateTableChecks r a) = some .badParam := by
      simp only [rateTableChecks, firstFailure_cons, ← hn, ← haddr, hn1, h2]
      rfl
    rw [if_pos h2, hfail, askCtl_answer]

/-- Two entries that do not overlap, one way or the other (R37). -/
theorem overlaps_eq_false_iff (x y : RateEntry) : x.overlaps y = false ↔ x.max < y.min ∨ y.max < x.min := by
  simp only [RateEntry.overlaps, Bool.and_eq_false_iff, decide_eq_false_iff_not, not_le]
  omega

theorem anyOverlap_eq_false_iff (es : List RateEntry) :
    anyOverlap es = false ↔ es.Pairwise fun x y => x.max < y.min ∨ y.max < x.min := by
  induction es with
  | nil => simp [anyOverlap]
  | cons e es ih => simp [anyOverlap, ih, overlaps_eq_false_iff]

theorem anyBad_iff (es : List RateEntry) :
    es.any RateEntry.bad = true ↔ ∃ e ∈ es, e.divisor < 32 ∨ e.min < 16 ∨ e.max < e.min := by
  simp [RateEntry.bad, or_assoc]

/-- The validation of the entries, first by range and then by overlap (R37). -/
theorem tableStatus_eq (es : List RateEntry) : tableStatus es =
    if ∃ e ∈ es, e.divisor < 32 ∨ e.min < 16 ∨ e.max < e.min then .badParam
    else if ¬ es.Pairwise fun x y => x.max < y.min ∨ y.max < x.min then .tableOverlap
    else .ok := by
  simp only [tableStatus, anyBad_iff, ← anyOverlap_eq_false_iff, Bool.not_eq_false]

/-- A result of the request that the Control Unit holds. -/
theorem heldResult_of {code : Nat} {w : Requester} {x : Result} (hst : s.control.st = .holding)
    (hreq : s.control.req = some r) (hc : (reqCode r).toNat = code) (hx : s.result? w = some x) :
    s.heldResult? code w = some (r, x) := by
  simp [State.heldResult?, hst, hreq, hx, hc]

theorem reqLineNo_of_code_one (hc : (reqCode r).toNat = 1) : reqLineNo r = none := by
  simp [reqLineNo, namesLine, hc]

/-- What TABLE_READ_ENDS does with the result of the held request's read (R37). -/
theorem exec_tableReadEnds {x : Result} (hr : s.resetHeld = false) (hst : s.control.st = .holding)
    (hreq : s.control.req = some r) (hc : (reqCode r).toNat = 1) (hx : s.result? .tableRead = some x) :
    exec .tableReadEnds s = .next (match x.data with
      | some bs =>
        (if tableStatus (rateEntriesOf bs (recByte r 4).toNat) = .ok then
            { s.dropResult .tableRead with rateTable := rateEntriesOf bs (recByte r 4).toNat }
          else s.dropResult .tableRead).answer r (tableStatus (rateEntriesOf bs (recByte r 4).toNat))
      | none => (s.dropResult .tableRead).answer r .busError) := by
  show execTableReadEnds s = _
  rw [execTableReadEnds, take_of_running hr]
  cases hd : x.data <;> simp only [heldResult_of hst hreq hc hx, hd]

/-- Settles O16: a failed read, and the validation of the entries read. -/
theorem tableReadReplacesTheTable : Obligations.TableReadReplacesTheTable := by
  unfold Obligations.TableReadReplacesTheTable
  intro s r x hr hst hreq hc hx
  have hexec := exec_tableReadEnds hr hst hreq hc hx
  have hline := reqLineNo_of_code_one hc
  cases hd : x.data with
  | none =>
    rw [hd] at hexec
    refine ⟨_, hexec, rfl, .busError, ?_, fun _ => ⟨rfl, rfl⟩, fun bs hbs => by cases hbs⟩
    simp only [State.answer, hline]
    rfl
  | some bs =>
    rw [hd] at hexec
    refine ⟨_, hexec, ?_, tableStatus (rateEntriesOf bs (recByte r 4).toNat), ?_, fun h => (nomatch h), ?_⟩
    · dsimp only
      split <;> rfl
    · simp only [State.answer, hline]
      split <;> rfl
    · rintro bs' hbs es hes
      cases hbs
      have hes' : rateEntriesOf bs (recByte r 4).toNat = es := hes.symm
      have hstatus := tableStatus_eq es
      dsimp only
      rw [hes']
      split
      next hbad =>
        rw [if_pos hbad] at hstatus
        rw [hstatus]
        exact ⟨rfl, rfl⟩
      next hgood =>
        rw [if_neg hgood] at hstatus
        split
        next hover =>
          rw [if_pos hover] at hstatus
          rw [hstatus]
          exact ⟨rfl, rfl⟩
        next hapart =>
          rw [if_neg hapart] at hstatus
          rw [hstatus]
          exact ⟨rfl, rfl⟩

/-! ### The acceptance, the answer, and the fields of a record -/

/-- The line that an answer names (R115). -/
theorem reqLineNo_eq_some_iff (r : List Byte) (i : LineNo) : reqLineNo r = some i ↔
    (recByte r 1).toNat = i.val ∧ 2 ≤ (recByte r 0).toNat ∧ (recByte r 0).toNat ≤ 9 := by
  unfold reqLineNo
  by_cases h : (reqLine r).toNat < 8
  · rw [dif_pos h]
    by_cases hc : namesLine (reqCode r) = true
    · rw [if_pos hc, Option.some_inj, Fin.ext_iff]
      exact ⟨fun e => ⟨e, of_decide_eq_true hc⟩, fun e => e.1⟩
    · rw [if_neg hc]
      exact ⟨fun e => (nomatch e), fun e => absurd (decide_eq_true e.2) hc⟩
  · rw [dif_neg h]
    refine ⟨fun e => (nomatch e), fun e => absurd ?_ h⟩
    rw [show (reqLine r).toNat = i.val from e.1]
    exact i.isLt

theorem answer_eq (s : State) (r : List Byte) (st : Status) {line : Option LineNo} (h : reqLineNo r = line) :
    s.answer r st = { s with control :=
      { st := .idle, req := none
        slot := some { dest := 0, time := s.time, body := .controlDone (reqCode r) line (reqTag r) st } } } := by
  rw [← h]
  rfl

theorem half_toNat (a b : Byte) : (half a b).toNat = a.toNat + 2 ^ 8 * b.toNat := by
  rw [half, BitVec.toNat_append, ← Nat.shiftLeft_add_eq_or_of_lt a.isLt, Nat.shiftLeft_eq]
  omega

theorem word_toNat (a b c d : Byte) :
    (word a b c d).toNat = a.toNat + 2 ^ 8 * b.toNat + 2 ^ 16 * c.toNat + 2 ^ 24 * d.toNat := by
  simp only [word, BitVec.toNat_append]
  rw [← Nat.shiftLeft_add_eq_or_of_lt a.isLt, ← Nat.shiftLeft_add_eq_or_of_lt b.isLt,
    ← Nat.shiftLeft_add_eq_or_of_lt c.isLt]
  simp only [Nat.shiftLeft_eq]
  omega

/-- Each head stands in its two bytes of the progress block (section 9.4). -/
theorem flatMap_count16 (qs : List ReqQueue) : (qs.flatMap fun q => count16 q.head).length = 2 * qs.length ∧
    ∀ k (h : k < qs.length), recHalf (qs.flatMap fun q => count16 q.head) (2 * k) = BitVec.ofNat 16 qs[k].head := by
  induction qs with
  | nil => exact ⟨rfl, fun k h => absurd h (Nat.not_lt_zero k)⟩
  | cons q qs ih =>
    obtain ⟨hlen, hhead⟩ := ih
    refine ⟨?_, fun k hk => ?_⟩
    · rw [List.flatMap_cons, List.length_append, hlen]
      simp only [count16, halfBytes, List.length_cons, List.length_nil]
      omega
    · cases k with
      | zero => exact half_extract _
      | succ k =>
        rw [List.getElem_cons_succ, ← hhead k (by simpa using hk)]
        rfl

/-- FETCH_ENDS of the control queue carries a delivered record out (R111, R112). -/
theorem exec_fetchEnds_delivered (h : ControlDelivered s r) :
    exec (.fetchEnds 0) s = .next (carryOut r s.acceptControl).askCtl := by
  have hdel := ctlDelivery_of_delivered h
  obtain ⟨hr, _, hf, _, x, hx, hd⟩ := h
  show execFetchEnds 0 s = _
  rw [execFetchEnds, take_of_running hr]
  have hk : rqKind 0 = .ctl := rfl
  simp only [fetchResult_of hf hx, hk, hd, hdel, State.takeRequest]

/-- Settles O12: the acceptance, the answer and the next fetch, each as its own equation. -/
theorem acceptedRequestAnswered : Obligations.AcceptedRequestAnswered := by
  unfold Obligations.AcceptedRequestAnswered
  refine ⟨fun s r h a ha => ⟨⟨?_, fun q hq => ?_, ?_, ?_⟩, fun hc => ?_, fun hc => ?_⟩, fun s r h => ?_,
    fun s x r hr hf hx hd hno => ?_, fun s r st line hline => ?_, fun s => ?_, fun r => ⟨rfl, rfl, rfl, ?_, ?_⟩,
    fun s => ⟨?_, fun q => ?_⟩⟩
  · rw [ha, acceptControl_eq]
  · rw [ha, acceptControl_rq_ne s hq]
  · rw [ha, acceptControl_eq]
    exact State.rq_setRq_self s 0 _
  · rw [ha, acceptControl_eq]
  · have hno : reqLineNo r = none := by simp [reqLineNo, namesLine, hc]
    have htime : a.time = s.time := by rw [ha, acceptControl_time]
    rw [← htime, ← answer_eq a r .ok hno, ← askCtl_answer a r .ok, ha]
    exact takeControl_of_delivered h (· = 0) requestNop (decide_eq_true hc)
  · have hno : reqLineNo r = none := by
      have : ¬ (reqCode r).toNat ≤ 9 := by omega
      simp [reqLineNo, namesLine, this]
    have htime : a.time = s.time := by rw [ha, acceptControl_time]
    rw [← htime, ← answer_eq a r .badRequest hno, ← askCtl_answer a r .badRequest, ha]
    exact takeControl_of_delivered h (11 ≤ ·) requestUnassigned (decide_eq_true hc)
  · rw [exec_requestCommand h, exec_fetchEnds_delivered h]
  · have hnone : s.ctlDelivery = none := by
      rw [State.ctlDelivery, fetchResult_of hf hx]
      refine if_neg ?_
      rintro ⟨hp, he⟩
      rcases hno with h | h
      · exact h hp
      · simp [ReqQueue.isEmpty, h] at he
    have hask : s.endCtlFetch.askCtl = s.endCtlFetch := by
      rw [askCtl_eq]
      refine if_neg ?_
      rintro ⟨_, _, hp, he⟩
      rcases hno with h | h
      · exact h hp
      · have hrq : s.endCtlFetch.rq 0 = { s.rq 0 with fetch := false } := State.rq_setRq_self _ _ _
        simp [hrq, fetchable_iff, h] at he
    show execFetchEnds 0 s = _
    rw [execFetchEnds, take_of_running hr]
    have hk : rqKind 0 = .ctl := rfl
    simp only [fetchResult_of hf hx, hk, hd, hnone, hask]
    rfl
  · refine answer_eq s r st (Option.ext fun i => ?_)
    rw [hline i]
    exact reqLineNo_eq_some_iff r i
  · rw [askCtl_eq]
    simp only [fetchable_iff]
  · exact fun n => half_toNat _ _
  · exact fun n => word_toNat _ _ _ _
  · rw [progressBytes, (flatMap_count16 _).1, Vector.length_toList]
  · have := (flatMap_count16 s.reqQueues.toList).2 q.val (by simp)
    rw [progressBytes, this]
    simp [State.rq]

end Sys2Proof.Machine
end

section
/-! PROOF. OPEN_LINE and the requests of a session (O17 to O21). -/

namespace Sys2Proof.Machine

variable {s t a : State} {i : LineNo} {l : Line} {r : List Byte}

/-! ### A request whose line lets it pass -/

/-- A request answered OK which its line then takes. -/
theorem takes_of_answered {c : Instr} {f : Line → Line} {st : Status} {k : Line}
    (hexec : exec c s = .next ((s.acceptControl.answer r st).onLine i f).askCtl) (hk : f (s.line i) = k) :
    ∃ t, exec c s = .next t ∧ LineTakes i (s.acceptControl.answer r st) t k := by
  have hline : (s.acceptControl.answer r st).line i = s.line i := acceptControl_line s i
  exact ⟨_, hexec.trans (congrArg _ (askCtl_onLine_answer s.acceptControl r st i f)),
    (onLine_takes_line hline f).of_eq hk⟩

/-- A row of checks with one status: it passes when all of them do. -/
theorem firstFailure_map_append (bs : List Bool) (st : Status) (cs : List (Bool × Status)) :
    firstFailure (bs.map (·, st) ++ cs) = if bs.all id then firstFailure cs else some st := by
  induction bs with
  | nil => rfl
  | cons b bs ih =>
    rw [List.map_cons, List.cons_append, firstFailure_cons, ih]
    cases b <;> rfl

/-- A request with checks is answered with the first that fails, or is carried out. -/
theorem exec_checked {c : Instr} {o : Option Status} {x : State} (hexec : exec c s = .next (match o with
      | some st => a.answer r st
      | none => x).askCtl) :
    (∀ st, o = some st → exec c s = .next (a.answer r st)) ∧ (o = none → exec c s = .next x.askCtl) := by
  refine ⟨fun st ho => ?_, fun ho => ?_⟩
  · subst ho
    exact hexec.trans (congrArg _ (askCtl_answer a r st))
  · subst ho
    exact hexec

/-! ### OPEN_LINE -/

/-- The checks of an OPEN_LINE that are answered with BAD_PARAM (R120). -/
def openRangeChecks (r : List Byte) : List Bool :=
  let fixed := decide ((recByte r 4).toNat = 0)
  [ decide ((recByte r 4).toNat ≤ 1), !fixed || decide (5 ≤ (recByte r 5).toNat ∧ (recByte r 5).toNat ≤ 8),
    !fixed || (parityOfCode (recByte r 6)).isSome,
    !fixed || decide ((recByte r 7).toNat = 1 ∨ (recByte r 7).toNat = 2), !fixed || decide (32 ≤ (recHalf r 8).toNat),
    decide (4 ≤ (recByte r 24).toNat ∧ (recByte r 24).toNat ≤ 64),
    decide ((recByte r 21).toNat = 1 ∨ (recByte r 21).toNat = 2),
    !fixed || decide ((recByte r 22).toNat < 0x80 ∧ (recByte r 23).toNat < 0x80), decide ((recByte r 10).toNat ≤ 3),
    decide ((recByte r 11).toNat ≤ 1), decide (recByte r 12 ≠ recByte r 13), decide ((recByte r 14).toNat ≤ 30),
    decide ((recByte r 14).toNat + 1 ≤ (recByte r 15).toNat ∧ (recByte r 15).toNat ≤ 31),
    decide (2 ≤ (recByte r 19).toNat) ]

theorem openChecks_eq (r : List Byte) (tab : List RateEntry) : openChecks r tab =
    (openRangeChecks r).map (·, .badParam) ++
      [(decide ((recByte r 4).toNat = 0) || !tab.isEmpty, .noRateTable),
        (decide ((recByte r 4).toNat = 0) || unambiguous (recByte r 22) (recByte r 23), .trialAmbiguous)] := rfl

theorem parityOfCode_isSome (b : Byte) : (parityOfCode b).isSome = true ↔ b.toNat ≤ 4 := by
  revert b
  decide

theorem openRangeChecks_pass (r : List Byte) : (openRangeChecks r).all id = true ↔
    (recByte r 4).toNat ≤ 1 ∧
    ((recByte r 4).toNat = 0 →
      5 ≤ (recByte r 5).toNat ∧ (recByte r 5).toNat ≤ 8 ∧ (recByte r 6).toNat ≤ 4 ∧
        ((recByte r 7).toNat = 1 ∨ (recByte r 7).toNat = 2) ∧ 32 ≤ (recHalf r 8).toNat ∧
        (recByte r 22).toNat < 0x80 ∧ (recByte r 23).toNat < 0x80) ∧
    4 ≤ (recByte r 24).toNat ∧ (recByte r 24).toNat ≤ 64 ∧
    ((recByte r 21).toNat = 1 ∨ (recByte r 21).toNat = 2) ∧ (recByte r 10).toNat ≤ 3 ∧ (recByte r 11).toNat ≤ 1 ∧
    recByte r 12 ≠ recByte r 13 ∧ (recByte r 14).toNat ≤ 30 ∧ (recByte r 14).toNat + 1 ≤ (recByte r 15).toNat ∧
    (recByte r 15).toNat ≤ 31 ∧ 2 ≤ (recByte r 19).toNat := by
  have hpar := parityOfCode_isSome (recByte r 6)
  by_cases h : (recByte r 4).toNat = 0
  · simp only [openRangeChecks, List.all_cons, List.all_nil, Bool.and_true, id, Bool.and_eq_true, h, decide_true,
      Bool.not_true, Bool.false_or, decide_eq_true_eq, hpar, forall_const]
    tauto
  · simp only [openRangeChecks, List.all_cons, List.all_nil, Bool.and_true, id, Bool.and_eq_true, h, decide_false,
      Bool.not_false, Bool.true_or, decide_eq_true_eq, false_implies, true_and]
    tauto

theorem unambiguous_iff (v w : Byte) :
    unambiguous v w = true ↔ v.toNat < 0x80 ∧ w.toNat < 0x80 ∧ (weight v + weight w) % 2 = 1 := by
  simp only [unambiguous, Bool.and_eq_true, decide_eq_true_eq, and_assoc]
  have : weight v % 2 ≠ weight w % 2 ↔ (weight v + weight w) % 2 = 1 := by omega
  rw [this]

/-- The parity kind that a code names is the one with that code (section 12.7). -/
theorem parityOfCode_of_code {b : Byte} {p : Parity} (h : b.toNat = (match p with
      | .noParity => 0
      | .even => 1
      | .odd => 2
      | .mark => 3
      | .space => 4)) : parityOfCode b = some p := by
  cases p <;> simp only at h <;> simp only [parityOfCode, h]

theorem openFrame_eq {f : Frame} (hd : f.dataBits = (recByte r 5).toNat)
    (hp : (recByte r 6).toNat = (match f.parity with
      | .noParity => 0
      | .even => 1
      | .odd => 2
      | .mark => 3
      | .space => 4)) (hs : f.stopBits = (recByte r 7).toNat) : openFrame r = f := by
  rcases f with ⟨fd, fp, fs⟩
  rw [openFrame, parityOfCode_of_code hp, ← hd, ← hs]
  rfl

/-- Settles O17: the checks by their two statuses and the ranges, and the line that opens. -/
theorem openLineOpens : Obligations.OpenLineOpens := by
  unfold Obligations.OpenLineOpens
  refine ⟨fun r tab ranges hr => ?_, unambiguous_iff, fun s r i h hc hi hl hs => ?_⟩
  · rw [← openRangeChecks_pass] at hr
    rw [openChecks_eq, firstFailure_map_append]
    refine ⟨fun hno => ?_, fun hok h1 htab => ?_, fun hok h1 htab hamb => ?_, fun hok hdisc => ?_⟩
    · rw [if_neg (mt hr.2 hno)]
    · simp [hr.1 hok, firstFailure_cons, h1, htab]
    · simp [hr.1 hok, firstFailure_cons, h1, htab, hamb]
    · rw [if_pos (hr.1 hok)]
      by_cases h0 : (recByte r 4).toNat = 0
      · simp [firstFailure_cons, firstFailure_nil, h0]
      · have h1 : (recByte r 4).toNat = 1 := by
          have := ((openRangeChecks_pass r).1 (hr.1 hok)).1
          omega
        simp [firstFailure_cons, firstFailure_nil, h1, hdisc h1]
  have hno : reqLineNo r = some i := reqLineNo_of_code hi (by omega)
  have hexec : exec .openLine s = .next (requestOpenLine r s.acceptControl).askCtl :=
    takeControl_of_delivered h (· = 2) requestOpenLine (decide_eq_true hc)
  rw [requestOpenLine, withLine_passes hno (by rwa [acceptControl_line]) (by simp [hs]), acceptControl_rateTable] at hexec
  refine ⟨fun st hst => ?_, fun hpass cq f hcq hf => ?_⟩
  · simpa only [hst, askCtl_answer] using hexec
  · simp only [hpass] at hexec
    refine takes_of_answered hexec ?_
    have hcq' : (Fin.ofNat 4 (recByte r 10).toNat : CqNo) = cq := Fin.ext (by rw [← hcq]; simp [Fin.ofNat])
    unfold Line.openWith
    dsimp only
    split at hf
    next h0 =>
      obtain ⟨hd, hp, hst⟩ := hf
      simp only [h0, openFrame_eq hd hp hst, openSettings, hcq', if_true, true_or]
      rfl
    next h0 =>
      simp only [h0, hf, openSettings, hcq', if_false, false_or, Line.enterSeek, msTimer]
      rfl

/-! ### MODIFY_LINE -/

theorem modifyChecks_eq (r : List Byte) (x : Settings) : firstFailure (modifyChecks r x) =
    if (recBit r 4 2 = true ∧ 30 < (modifySettings r x).lowMark) ∨
        ((recBit r 4 1 = true ∨ recBit r 4 2 = true) ∧
          ((modifySettings r x).highMark ≤ (modifySettings r x).lowMark ∨ 31 < (modifySettings r x).highMark)) ∨
        (recBit r 4 5 = true ∧ (modifySettings r x).breakLength < 2) then some .badParam
    else none := by
  generalize hy : modifySettings r x = y
  have hchecks : modifyChecks r x =
      [!recBit r 4 2 || decide (y.lowMark ≤ 30),
        !(recBit r 4 1 || recBit r 4 2) || decide (y.lowMark + 1 ≤ y.highMark ∧ y.highMark ≤ 31),
        !recBit r 4 5 || decide (2 ≤ y.breakLength)].map (·, .badParam) ++ [] := by
    rw [← hy]
    rfl
  rw [hchecks, firstFailure_map_append]
  simp only [List.all_cons, List.all_nil, Bool.and_true, id, Bool.and_eq_true, Bool.or_eq_true, Bool.not_eq_true',
    decide_eq_true_eq, firstFailure_nil]
  cases recBit r 4 1 <;> cases recBit r 4 2 <;> cases recBit r 4 5 <;> simp <;> split_ifs <;> first | rfl | omega

/-- What a line keeps of its timers and settings after a MODIFY_LINE, before the flow tests (R124). -/
theorem modify_eq (l : Line) (r : List Byte) {l1 : Line} (h : l1 = { l with
      set := modifySettings r l.set
      rx := { l.rx with
        gapTimer := if recBit r 4 0 = true ∧ (recByte r 5).toNat = 0 then none else l.rx.gapTimer }
      flow := { l.flow with
        timer := if recBit r 4 4 = true ∧ (recHalf r 10).toNat = 0 then none else l.flow.timer } }) :
    l.modify r = if l1.set.highMark ≤ l1.rx.fifo.length then l1.flowRise else l1.flowFall := by
  have hgap : (recBit r 4 0 = true ∧ (modifySettings r l.set).gap = 0) ↔
      (recBit r 4 0 = true ∧ (recByte r 5).toNat = 0) :=
    and_congr_right fun hb => by simp [modifySettings, hb]
  have hpause : (recBit r 4 4 = true ∧ (modifySettings r l.set).pauseLimit = 0) ↔
      (recBit r 4 4 = true ∧ (recHalf r 10).toNat = 0) :=
    and_congr_right fun hb => by simp [modifySettings, hb]
  rw [h]
  unfold Line.modify
  simp only [hgap, hpause]

/-- Settles O18: the checks of R123, and the settings with the timers and tests that follow them. -/
theorem modifyLineReplacesSettings : Obligations.ModifyLineReplacesSettings := by
  unfold Obligations.ModifyLineReplacesSettings
  intro s r i h hc hi hl hs x hx
  have hno : reqLineNo r = some i := reqLineNo_of_code hi (by omega)
  have hexec : exec .modifyLine s = .next (requestModifyLine r s.acceptControl).askCtl :=
    takeControl_of_delivered h (· = 3) requestModifyLine (decide_eq_true hc)
  have hset : modifySettings r (s.line i).set = x := hx.symm
  rw [requestModifyLine, withLine_passes hno (by rwa [acceptControl_line]) (by rwa [acceptControl_line]),
    acceptControl_line, modifyChecks_eq, hset] at hexec
  split
  next hbad =>
    rw [if_pos hbad] at hexec
    simpa only [askCtl_answer] using hexec
  next hgood =>
    rw [if_neg hgood] at hexec
    obtain ⟨t, ht, htakes⟩ := takes_of_answered (f := fun l => l.modify r) hexec rfl
    refine ⟨t, _, ht, htakes, fun l1 hl1 => ?_⟩
    have hl1' := hl1
    rw [← hset] at hl1'
    rw [modify_eq (s.line i) r hl1', ← hset, hl1']

/-! ### SET_DELIMITERS -/

theorem actionOfCode_isSome (b : Byte) : (actionOfCode b).isSome = true ↔ b.toNat ≤ 2 := by
  revert b
  decide

theorem actionOfCode_getD (b : Byte) (h : b.toNat ≤ 2) : b.toNat = (match (actionOfCode b).getD .drop with
    | .keepAndClose => 0
    | .dropAndClose => 1
    | .drop => 2) := by
  revert b
  decide

/-- The checks of a delimiter block in the order of R66. -/
theorem delimChecks_eq (r : List Byte) {n : Nat} (hn : n = (recByte r 4).toNat) {slot : Nat → List Byte}
    (hslot : ∀ k, slotBytes r k = slot k) : firstFailure (delimChecks r) =
    if 4 < n then some .badParam
    else if ∃ k < n, (recByte r (8 + 6 * k)).toNat < 1 ∨ 4 < (recByte r (8 + 6 * k)).toNat then some .badParam
    else if ∃ k < n, 2 < (recByte r (8 + 6 * k + 1)).toNat then some .badParam
    else if ∃ j < n, ∃ k < n, j ≠ k ∧ slot j <+: slot k then some .delimiterConflict
    else none := by
  have hcount : decide (n ≤ 4) = true ↔ ¬ 4 < n := by rw [decide_eq_true_eq, not_lt]
  have hlen : ((List.range n).all fun k => decide (1 ≤ slotLength r k ∧ slotLength r k ≤ 4)) = true ↔
      ¬ ∃ k < n, (recByte r (8 + 6 * k)).toNat < 1 ∨ 4 < (recByte r (8 + 6 * k)).toNat := by
    simp only [List.all_eq_true, List.mem_range, decide_eq_true_eq, not_exists, not_and, not_or, not_lt]
    rfl
  have hact : ((List.range n).all fun k => (slotAction r k).isSome) = true ↔
      ¬ ∃ k < n, 2 < (recByte r (8 + 6 * k + 1)).toNat := by
    simp only [List.all_eq_true, List.mem_range, slotAction, actionOfCode_isSome, not_exists, not_and, not_lt]
  have hpre : ((List.range n).all fun j => (List.range n).all fun k =>
        decide (j = k) || !(slotBytes r j).isPrefixOf (slotBytes r k)) = true ↔
      ¬ ∃ j < n, ∃ k < n, j ≠ k ∧ slot j <+: slot k := by
    simp only [List.all_eq_true, List.mem_range, Bool.or_eq_true, decide_eq_true_eq, Bool.not_eq_true',
      ← Bool.not_eq_true, List.isPrefixOf_iff_prefix, not_exists, not_and, or_iff_not_imp_left, ne_eq, hslot]
  simp only [delimChecks, ← hn, firstFailure_cons, firstFailure_nil, hcount, hlen, hact, hpre, ite_not]

/-- Settles O19: the checks of R66, and the table of the slots below the count. -/
theorem setDelimitersReplacesTheTable : Obligations.SetDelimitersReplacesTheTable := by
  unfold Obligations.SetDelimitersReplacesTheTable
  intro s r i h hc hi hl hs n hn slot hslot
  have hno : reqLineNo r = some i := reqLineNo_of_code hi (by omega)
  have hexec : exec .setDelimiters s = .next (requestSetDelimiters r s.acceptControl).askCtl :=
    takeControl_of_delivered h (· = 4) requestSetDelimiters (decide_eq_true hc)
  have hbytes : ∀ k, slotBytes r k = slot k := fun k => (hslot k).symm
  rw [requestSetDelimiters, withLine_passes hno (by rwa [acceptControl_line]) (by rwa [acceptControl_line])] at hexec
  obtain ⟨hfail, hpass⟩ := exec_checked hexec
  have hchecks := delimChecks_eq r hn hbytes
  by_cases h1 : 4 < n
  · rw [if_pos h1] at hchecks ⊢
    exact hfail _ hchecks
  rw [if_neg h1] at hchecks ⊢
  by_cases h2 : ∃ k < n, (recByte r (8 + 6 * k)).toNat < 1 ∨ 4 < (recByte r (8 + 6 * k)).toNat
  · rw [if_pos h2] at hchecks ⊢
    exact hfail _ hchecks
  rw [if_neg h2] at hchecks ⊢
  by_cases h3 : ∃ k < n, 2 < (recByte r (8 + 6 * k + 1)).toNat
  · rw [if_pos h3] at hchecks ⊢
    exact hfail _ hchecks
  rw [if_neg h3] at hchecks ⊢
  by_cases h4 : ∃ j < n, ∃ k < n, j ≠ k ∧ slot j <+: slot k
  · rw [if_pos h4] at hchecks ⊢
    exact hfail _ hchecks
  rw [if_neg h4] at hchecks ⊢
  obtain ⟨t, ht, htakes⟩ := takes_of_answered (f := fun l => l.setDelims r) (hpass hchecks) rfl
  refine ⟨t, _, ht, htakes, rfl, rfl, ?_, fun k hk => ?_⟩
  · simp [Line.setDelims, blockDelims, hn]
  · have hkn : k < n := by simpa [Line.setDelims, blockDelims, hn] using hk
    have hcode : (recByte r (8 + 6 * k + 1)).toNat ≤ 2 := by
      by_contra hbig
      exact h3 ⟨k, hkn, by omega⟩
    have hget : ((s.line i).setDelims r).rx.delims[k] =
        { bytes := slotBytes r k, action := (slotAction r k).getD .drop } := by
      simp [Line.setDelims, blockDelims]
    simp only [hget, hbytes, slotAction, true_and]
    exact actionOfCode_getD _ hcode

/-! ### REDISCOVER -/

/-- What a REDISCOVER does before it enters SEEK leaves the settings. -/
theorem rediscover_set (l : Line) (i : LineNo) (time : Word) :
    (({ l.discardFifo with rx := { l.discardFifo.rx with hold := [] } }).closeBuffer i time
      .rateChange none).flowFall.chooseOutput.set = l.set := by
  rw [chooseOutput_eq]
  exact (flowFall_set _).trans (closeBuffer_onlyRx _ i time .rateChange none).set

/-- Settles O20: the checks of R125, and the line as R126 leaves it. -/
theorem rediscoverEntersSeek : Obligations.RediscoverEntersSeek := by
  unfold Obligations.RediscoverEntersSeek
  intro s r i h hc hi hl hs
  have hno : reqLineNo r = some i := reqLineNo_of_code hi (by omega)
  have hexec : exec .rediscover s = .next (requestRediscover r s.acceptControl).askCtl :=
    takeControl_of_delivered h (· = 5) requestRediscover (decide_eq_true hc)
  rw [requestRediscover, withLine_passes hno (by rwa [acceptControl_line]) (by simp [hs]), acceptControl_line,
    acceptControl_rateTable, acceptControl_time] at hexec
  obtain ⟨hfail, hpass⟩ := exec_checked hexec
  have hchecks : firstFailure (rediscoverChecks (s.line i) s.rateTable) =
      if (s.line i).tx.st ≠ .idle then some .lineBusy
      else if (s.line i).flowOnOutput = true then some .lineBusy
      else if s.rateTable = [] then some .noRateTable
      else if unambiguous (s.line i).set.trial1 (s.line i).set.trial2 = false then some .trialAmbiguous
      else none := by
    simp only [rediscoverChecks, firstFailure_cons, firstFailure_nil, decide_eq_true_eq, Bool.not_eq_true',
      ← Bool.not_eq_true, List.isEmpty_iff, ite_not, ne_eq]
  split
  next h1 => exact hfail _ (hchecks.trans (if_pos h1))
  next h1 =>
    rw [if_neg h1] at hchecks
    split
    next h2 => exact hfail _ (hchecks.trans (if_pos h2))
    next h2 =>
      rw [if_neg h2] at hchecks
      split
      next h3 => exact hfail _ (hchecks.trans (if_pos h3))
      next h3 =>
        rw [if_neg h3] at hchecks
        split
        next h4 => exact hfail _ (hchecks.trans (if_pos h4))
        next h4 =>
          rw [if_neg h4] at hchecks
          obtain ⟨t, ht, htakes⟩ := takes_of_answered (f := fun l => l.rediscover i s.time) (hpass hchecks) rfl
          refine ⟨t, _, _, ht, htakes, rfl, ?_⟩
          rw [Line.rediscover, Line.enterSeek]
          dsimp only
          rw [rediscover_set]
          rfl

/-! ### The flushes -/

theorem flushCurrent_none (hc : l.tx.cur = none) (i : LineNo) (time : Word) : l.flushCurrent i time = l := by
  simp only [Line.flushCurrent, hc]

theorem flushCurrent_data {c : TxCurrent} {bits : List Bool} (hc : l.tx.cur = some c) (ho : l.tx.output = .data bits)
    (i : LineNo) (time : Word) : l.flushCurrent i time = l.endAfterOutput i time .aborted := by
  simp only [Line.flushCurrent, hc, ho]

/-- With no data character on the output the current record ends at once (R92). -/
theorem flushCurrent_ends {c : TxCurrent} (hc : l.tx.cur = some c) (ho : ∀ bits, l.tx.output ≠ .data bits)
    (i : LineNo) (time : Word) : l.flushCurrent i time = { l with tx := { l.tx with
      st := .idle, cur := none, ending := none, fifo := []
      output := if l.tx.output = .brk then .mark else l.tx.output
      breakTimer := if l.tx.output = .brk then none else l.tx.breakTimer
      slot := some { dest := l.set.boundCq, time := time
                     body := .txDone i c.record.tag c.bytesSent .aborted } } } := by
  have hstop : l.stopBreak.tx.cur = some c := hc
  cases hout : l.tx.output with
  | data bits => exact absurd hout (ho bits)
  | mark => simp [Line.flushCurrent, hc, hout, endRecord_some hc]
  | flow c bits => simp [Line.flushCurrent, hc, hout, endRecord_some hc]
  | brk =>
    have hstops : l.flushCurrent i time = l.stopBreak.endRecord i time .aborted := by
      simp only [Line.flushCurrent, hc, hout]
    rw [hstops, endRecord_some hstop]
    simp [Line.stopBreak]

/-- Settles O21: FLUSH_RX by what it finds, and FLUSH_TX by what is on the output. -/
theorem flushesBegin : Obligations.FlushesBegin := by
  unfold Obligations.FlushesBegin
  refine ⟨fun s r i h hc hi hl hs => ?_, fun s r i h hc hi hl hs => ?_⟩
  · have hno : reqLineNo r = some i := reqLineNo_of_code hi (by omega)
    have hexec : exec .flushRx s = .next (requestFlushRx r s.acceptControl).askCtl :=
      takeControl_of_delivered h (· = 7) requestFlushRx (decide_eq_true hc)
    rw [requestFlushRx, withLine_passes hno (by rwa [acceptControl_line]) (by simp [hs]), acceptControl_time] at hexec
    obtain ⟨t, ht, htakes⟩ := takes_of_answered (f := fun l => l.flushRx i s.time) hexec rfl
    refine ⟨t, _, _, ht, htakes, rfl, ?_⟩
    have hstarted : (s.line i).discardFifo.hasStarted = (s.line i).hasStarted := rfl
    unfold Line.flushRx
    dsimp only
    rw [hstarted]
    split
    · rfl
    · split <;> rfl
  · have hno : reqLineNo r = some i := reqLineNo_of_code hi (by omega)
    have hexec : exec .flushTx s = .next (requestFlushTx r s.acceptControl).askCtl :=
      takeControl_of_delivered h (· = 6) requestFlushTx (decide_eq_true hc)
    rw [requestFlushTx, withLine_passes hno (by rwa [acceptControl_line]) (by rwa [acceptControl_line]),
      acceptControl_time, acceptControl_rq_ne s (txq_ne_zero i)] at hexec
    refine ⟨_, _, _, hexec, onLine_takes_line (acceptControl_line s i) _, rfl, fun hcur => ?_, fun cur bits hcur ho => ?_,
      fun cur hcur ho => ?_⟩
    · exact flushCurrent_none hcur i s.time
    · exact flushCurrent_data hcur ho i s.time
    · exact flushCurrent_ends hcur ho i s.time

end Sys2Proof.Machine
end

section
/-! PROOF. CLOSE_LINE (O22) and QUERY_LINE with its report (O23). -/

namespace Sys2Proof.Machine

variable {s t a : State} {i : LineNo} {l : Line} {r : List Byte}

/-! ### CLOSE_LINE -/

theorem modeOfCode_of_zero {b : Byte} (h : b.toNat = 0) : modeOfCode b = some .graceful := by
  simp only [modeOfCode, h]

theorem modeOfCode_of_one {b : Byte} (h : b.toNat = 1) : modeOfCode b = some .immediate := by
  simp only [modeOfCode, h]

theorem modeOfCode_of_gt {b : Byte} (h : 1 < b.toNat) : modeOfCode b = none := by
  unfold modeOfCode
  split <;> first | omega | rfl

/-- The rows of R129, once the line number and the mode have been checked. -/
theorem requestCloseLine_eq {m : CloseMode} (hno : reqLineNo r = some i) (hm : modeOfCode (recByte r 4) = some m) :
    requestCloseLine r a = match (a.line i).long with
      | .closeLine .graceful g =>
        if m = .immediate then a.onLine i fun l => l.overtake i a.time g (reqTag r) else a.answer r .lineBusy
      | .closeLine .immediate _ => a.answer r .lineBusy
      | .twoCloses _ _ => a.answer r .lineBusy
      | .flushTx _ => if (a.line i).state = .closing then a.answer r .lineState else a.answer r .lineBusy
      | .noRequest => if (a.line i).state = .closing ∨ (a.line i).state = .closed then a.answer r .lineState
        else a.onLine i fun l => l.takeClose i a.time m (reqTag r) (recHalf r 6).toNat (a.rq (txq i)).tail := by
  rcases hl : (a.line i).long with _ | _ | ⟨_ | _, _⟩ | _ <;> simp only [requestCloseLine, hno, hm, hl]

theorem inSession_iff_not (x : LineState) : inSession x = true ↔ ¬ (x = .closing ∨ x = .closed) := by
  cases x <;> decide

/-- Settles O22: the row by the pending request, and the close that begins or is overtaken. -/
theorem closeLineFollowsItsRows : Obligations.CloseLineFollowsItsRows := by
  unfold Obligations.CloseLineFollowsItsRows
  intro s r h hc a ha
  have hexec : exec .closeLine s = .next (requestCloseLine r a).askCtl := by
    rw [ha]
    exact takeControl_of_delivered h (· = 8) requestCloseLine (decide_eq_true hc)
  refine ⟨fun hbig => ?_, fun i hi l hl l0 hl0 => ?_⟩
  · rw [hexec, requestCloseLine, reqLineNo_of_ge hbig]
    simp only [askCtl_answer]
  have hno : reqLineNo r = some i := reqLineNo_of_code hi (by omega)
  have hline : a.line i = l := by rw [ha, hl, acceptControl_line]
  have htime : a.time = s.time := by rw [ha, acceptControl_time]
  have hrq : a.rq (txq i) = s.rq (txq i) := by rw [ha, acceptControl_rq_ne s (txq_ne_zero i)]
  by_cases hgt : 1 < (recByte r 4).toNat
  · rw [if_pos hgt, hexec, requestCloseLine, hno]
    simp only [modeOfCode_of_gt hgt, askCtl_answer]
  rw [if_neg hgt]
  obtain ⟨m, hm, hmode⟩ : ∃ m, modeOfCode (recByte r 4) = some m ∧ (m = .graceful ↔ (recByte r 4).toNat = 0) := by
    by_cases h0 : (recByte r 4).toNat = 0
    · exact ⟨_, modeOfCode_of_zero h0, by simp [h0]⟩
    · exact ⟨_, modeOfCode_of_one (by omega), by simp [h0]⟩
  rw [requestCloseLine_eq hno hm, hline, htime, hrq] at hexec
  by_cases htake : l.long = .noRequest ∧ inSession l.state = true
  · obtain ⟨hlong, hs⟩ := htake
    rw [if_pos ⟨hlong, hs⟩]
    simp only [hlong, if_neg ((inSession_iff_not _).1 hs)] at hexec
    refine ⟨_, hexec, (onLine_takes_line hline _).of_eq ?_⟩
    rw [hl0]
    cases m with
    | graceful => rw [if_pos (hmode.1 rfl)]; rfl
    | immediate =>
      rw [if_neg fun h0 => by cases hmode.2 h0]
      rfl
  rw [if_neg htake]
  cases hlong : l.long with
  | noRequest =>
    have hs : l.state = .closing ∨ l.state = .closed := by
      by_contra hs
      exact htake ⟨hlong, (inSession_iff_not _).2 hs⟩
    simpa only [hlong, if_pos hs, askCtl_answer] using hexec
  | flushTx tag =>
    simp only [hlong] at hexec
    by_cases hs : l.state = .closing
    · simpa only [if_pos hs, askCtl_answer] using hexec
    · simpa only [if_neg hs, askCtl_answer] using hexec
  | twoCloses g tag => simpa only [hlong, askCtl_answer] using hexec
  | closeLine x g =>
    cases x with
    | immediate => simpa only [hlong, askCtl_answer] using hexec
    | graceful =>
      simp only [hlong] at hexec ⊢
      cases m with
      | graceful =>
        rw [if_pos (hmode.1 rfl)]
        simpa only [reduceCtorEq, if_false, askCtl_answer] using hexec
      | immediate =>
        rw [if_neg fun h0 => by cases hmode.2 h0]
        simp only [if_true] at hexec
        exact ⟨_, hexec, onLine_takes_line hline _⟩

/-! ### The Line Report -/

theorem recHalf_count16 {r : List Byte} {n : Nat} {k : Nat} (h0 : recByte r n = (BitVec.ofNat 16 k).extractLsb' 0 8)
    (h1 : recByte r (n + 1) = (BitVec.ofNat 16 k).extractLsb' 8 8) : recHalf r n = BitVec.ofNat 16 k := by
  rw [recHalf, h0, h1, half_extract]

theorem recByte_append_left {x y : List Byte} {n : Nat} (h : n < x.length) : recByte (x ++ y) n = recByte x n := by
  simp [recByte, List.getD_eq_getElem?_getD, List.getElem?_append_left h]

theorem recByte_append_right (x y : List Byte) (n : Nat) : recByte (x ++ y) (x.length + n) = recByte y n := by
  simp [recByte, List.getD_eq_getElem?_getD, List.getElem?_append_right]

theorem recWord_append_right (x y : List Byte) (n : Nat) : recWord (x ++ y) (x.length + n) = recWord y n := by
  simp only [recWord, Nat.add_assoc, recByte_append_right]

/-- Words written one after the other are read back, each from its own four bytes. -/
theorem recWord_flatMap_wordBytes (ws : List Word) (k : Nat) (h : k < ws.length) :
    recWord (ws.flatMap wordBytes) (4 * k) = ws[k] := by
  induction ws generalizing k with
  | nil => exact absurd h (Nat.not_lt_zero k)
  | cons w ws ih =>
    rw [List.flatMap_cons]
    cases k with
    | zero => exact word_extract w
    | succ k =>
      rw [List.getElem_cons_succ, ← ih k (by simpa using h), Nat.mul_succ, Nat.add_comm]
      exact recWord_append_right (wordBytes w) _ _

theorem counters_bytes_eq (c : Counters) : c.bytes = [c.rxChars, c.txChars, c.parityErrors, c.framingErrors, c.overruns,
    c.breaks, c.gapCloses, c.trialsFailed, c.eventsLost, c.flushedEntries].flatMap wordBytes := by
  simp [Counters.bytes]

/-- The Line Report before its counters (section 12.6). -/
def Line.reportHead (l : Line) : List Byte :=
  [l.state.code, (l.close.mode.map CloseMode.code).getD 0xFF, l.long.code, l.tx.st.code, l.flagByte,
    (l.rateIndex.map (BitVec.ofNat 8)).getD 0xFF, (BitVec.ofNat 16 l.divisor).extractLsb' 0 8,
    (BitVec.ofNat 16 l.divisor).extractLsb' 8 8, BitVec.ofNat 8 l.frame.dataBits, l.frame.parity.code,
    BitVec.ofNat 8 l.frame.stopBits, BitVec.ofNat 8 l.set.boundCq.val, BitVec.ofNat 8 l.set.highMark,
    BitVec.ofNat 8 l.set.lowMark, BitVec.ofNat 8 l.set.gap, BitVec.ofNat 8 l.set.breakLength,
    (BitVec.ofNat 16 l.set.pauseLimit).extractLsb' 0 8, (BitVec.ofNat 16 l.set.pauseLimit).extractLsb' 8 8,
    (BitVec.ofNat 16 l.bytesLeft).extractLsb' 0 8, (BitVec.ofNat 16 l.bytesLeft).extractLsb' 8 8,
    BitVec.ofNat 8 l.rx.fifo.length, BitVec.ofNat 8 l.rx.hold.length,
    BitVec.ofNat 8 l.rx.bufs.length ||| (BitVec.ofNat 8 l.events.length <<< 4), BitVec.ofNat 8 l.disc.attempts]

theorem report_eq (l : Line) : l.report = l.reportHead ++ l.counters.bytes := by
  simp only [Line.report, Line.reportHead, count16, halfBytes, List.cons_append, List.nil_append]

/-- The fields of the report before its counters stand where its head has them. -/
theorem recByte_report {l : Line} {n : Nat} (h : n < 24) : recByte l.report n = recByte l.reportHead n := by
  rw [report_eq]
  exact recByte_append_left h

theorem recHalf_report {l : Line} {n : Nat} (h : n < 23) : recHalf l.report n = recHalf l.reportHead n := by
  rw [recHalf, recByte_report (by omega), recByte_report (by omega), recHalf]

/-- Counter `k` of the report. -/
theorem recWord_report {l : Line} {n : Nat} (k : Nat) (hn : n = 24 + 4 * k) {w : Word} (hw : [l.counters.rxChars,
      l.counters.txChars, l.counters.parityErrors, l.counters.framingErrors, l.counters.overruns, l.counters.breaks,
      l.counters.gapCloses, l.counters.trialsFailed, l.counters.eventsLost, l.counters.flushedEntries][k]? = some w) :
    recWord l.report n = w := by
  obtain ⟨hk, rfl⟩ := List.getElem?_eq_some_iff.1 hw
  rw [hn, report_eq, counters_bytes_eq, ← recWord_flatMap_wordBytes _ k hk]
  exact recWord_append_right l.reportHead _ _

/-- Two counts below 8 in one byte. -/
theorem two_counts_toNat {m n : Nat} (hm : m < 8) (hn : n < 8) :
    (BitVec.ofNat 8 m ||| (BitVec.ofNat 8 n <<< 4)).toNat = m + 16 * n := by
  interval_cases m <;> interval_cases n <;> rfl

theorem report_layout (l : Line) : ReportLayout l l.report := by
  have hflag : ∀ k < 8, recBit l.report 4 k = [decide (l.set.flowMode = .inband), l.flow.ownPaused, l.flow.peerPaused,
      l.rx.gapArmed, l.set.closeOnError, l.set.keepTrial, l.rx.lossPending, l.rx.lossCarried].getD k false := by
    intro k hk
    rw [recBit, recByte_report (by decide)]
    exact flagBits_getLsbD _ _ _ _ _ _ _ _ k hk
  have hlen : l.report.length = 64 := by
    rw [report_eq, counters_bytes_eq, List.length_append]
    rfl
  refine ⟨hlen, ?_, ?_, ?_, ?_, hflag 0 (by decide), hflag 1 (by decide), hflag 2 (by decide), hflag 3 (by decide),
    hflag 4 (by decide), hflag 5 (by decide), hflag 6 (by decide), hflag 7 (by decide), ?_,
    (recHalf_report (by decide)).trans (recHalf_count16 rfl rfl), recByte_report (by decide), ?_,
    recByte_report (by decide), recByte_report (by decide), recByte_report (by decide), recByte_report (by decide),
    recByte_report (by decide), recByte_report (by decide), (recHalf_report (by decide)).trans (recHalf_count16 rfl rfl),
    ?_, recByte_report (by decide), recByte_report (by decide), fun hb he => ?_, recByte_report (by decide),
    recWord_report 0 rfl rfl, recWord_report 1 rfl rfl, recWord_report 2 rfl rfl, recWord_report 3 rfl rfl,
    recWord_report 4 rfl rfl, recWord_report 5 rfl rfl, recWord_report 6 rfl rfl, recWord_report 7 rfl rfl,
    recWord_report 8 rfl rfl, recWord_report 9 rfl rfl⟩
  · rw [recByte_report (by decide)]
    show l.state.code = _
    cases l.state <;> rfl
  · rw [recByte_report (by decide)]
    show (l.close.mode.map CloseMode.code).getD 0xFF = _
    rcases l.close.mode with _ | _ | _ <;> rfl
  · rw [recByte_report (by decide)]
    show l.long.code = _
    cases l.long <;> rfl
  · rw [recByte_report (by decide)]
    show l.tx.st.code = _
    cases l.tx.st <;> rfl
  · rw [recByte_report (by decide)]
    show (l.rateIndex.map (BitVec.ofNat 8)).getD 0xFF = _
    cases l.rateIndex <;> rfl
  · rw [recByte_report (by decide)]
    show l.frame.parity.code = _
    cases l.frame.parity <;> rfl
  · rw [recHalf_report (by decide)]
    refine (recHalf_count16 (k := l.bytesLeft) rfl rfl).trans ?_
    unfold Line.bytesLeft
    cases l.tx.cur <;> rfl
  · rw [recByte_report (by decide)]
    exact two_counts_toNat hb he

/-! ### QUERY_LINE -/

/-- Settles O23: the checks and the snapshot, the report's bytes, and the answer after the write. -/
theorem queryLineReports : Obligations.QueryLineReports := by
  unfold Obligations.QueryLineReports
  refine ⟨fun s r h hc a ha => ?_, report_layout, fun s r x hr hst hreq hc hx => ?_⟩
  · have hexec : exec .queryLine s = .next (requestQueryLine r a).askCtl := by
      rw [ha]
      exact takeControl_of_delivered h (· = 9) requestQueryLine (decide_eq_true hc)
    refine ⟨fun hbig => ?_, fun i hi => ?_⟩
    · rw [hexec, requestQueryLine, reqLineNo_of_ge hbig]
      simp only [askCtl_answer]
    have hno : reqLineNo r = some i := reqLineNo_of_code hi (by omega)
    have hline : ∀ j, a.line j = s.line j := fun j => by rw [ha, acceptControl_line]
    have hwin : a.windows = s.windows := by rw [ha, acceptControl_windows]
    have hslot : a.control.slot = s.control.slot := by rw [ha, acceptControl_slot]
    rw [requestQueryLine, hno] at hexec
    dsimp only at hexec
    obtain ⟨hfail, hpass⟩ := exec_checked hexec
    have hchecks : firstFailure (queryChecks r a.windows) =
        if (recWord r 8).toNat % 8 ≠ 0 then some .badParam
        else if rangeAllowed s.windows true (recWord r 8) 64 = false then some .addressFault
        else none := by
      rw [hwin]
      simp only [queryChecks, firstFailure_cons, firstFailure_nil, decide_eq_true_eq, ite_not, ne_eq,
        ← Bool.not_eq_true]
    split
    next h1 => exact hfail _ (hchecks.trans (if_pos h1))
    next h1 =>
      rw [if_neg h1] at hchecks
      split
      next h2 => exact hfail _ (hchecks.trans (if_pos h2))
      next h2 =>
        rw [if_neg h2] at hchecks
        have hexec' := hpass hchecks
        rw [askCtl_of_holding rfl] at hexec'
        refine ⟨_, hexec', ?_, fun j hj => ?_, ?_⟩
        · rw [← hslot, ← hline i]
          split <;> rfl
        · rw [← hline j]
          split
          · exact State.line_setLine_ne a _ hj
          · rfl
        · rw [← hline i]
          split
          · exact State.line_setLine_self a i _
          · rfl
  · show execReportWriteEnds s = _
    rw [execReportWriteEnds, take_of_running hr]
    simp only [heldResult_of hst hreq hc hx]
    cases x.data <;> rfl

end Sys2Proof.Machine
end

section
/-! PROOF. The part's own states: RUN written 0 (O6), the fatal accesses (O38), the end of LOADING (O40) and the ends of
STOPPING (O49). -/

namespace Sys2Proof.Machine

variable {s t : State} {i : LineNo} {l : Line}

/-! ### A close through settling -/

/-- Settling moves the phase of a close and its drain timer, and not its mode. -/
theorem settled_closeMode (l : Line) (i : LineNo) (time : Word) (q : ReqQueue) :
    (l.settled i time q).close.mode = l.close.mode := by
  have hflush : ∀ k : Line, (k.flushStep i time q).close = k.close := fun k => by
    rw [flushStep_eq_steps]
    unfold Line.flushAnswered Line.flushEnded Line.flushFetching
    repeat' split
    all_goals rfl
  have hdrain : ∀ k : Line, k.endDrain.close.mode = k.close.mode := fun k => by
    unfold Line.endDrain
    split <;> rfl
  have hmark : ∀ k : Line, (k.markTxDone q).close.mode = k.close.mode := fun k => by
    unfold Line.markTxDone
    split <;> rfl
  have hwind : ∀ k : Line, k.beginWindUp.close.mode = k.close.mode := fun k => by
    unfold Line.beginWindUp
    split <;> rfl
  rw [Line.settled, hflush, hdrain, hmark, hwind, (readRequested_onlyTx _).close, chooseOutput_eq]
  exact congrArg CloseSide.mode (chunkIssued_onlyRx l).close

theorem chooseOutput_flushDue (l : Line) : l.chooseOutput.tx.flushDue = l.tx.flushDue := by
  unfold Line.chooseOutput Line.startFlow Line.startData
  repeat' split
  all_goals rfl

theorem readRequested_flushDue (l : Line) : l.readRequested.tx.flushDue = l.tx.flushDue := by
  unfold Line.readRequested
  repeat' split
  all_goals rfl

/-- A CLOSING line with no CONTROL_DONE of a flush due keeps its long request through settling (R94). -/
theorem settled_long (hs : l.state = .closing) (hdue : l.tx.flushDue = none) (i : LineNo) (time : Word) (q : ReqQueue) :
    (l.settled i time q).long = l.long := by
  have hstep : ∀ k : Line, k.state = .closing → k.tx.flushDue = none → (k.flushStep i time q).long = k.long := by
    intro k hk hd
    have hended : k.flushFetching.flushEnded q = k.flushFetching := by
      refine if_neg ?_
      rintro ⟨hfl, _⟩
      rw [flushing_iff, (flushFetching_keeps k).state, hk] at hfl
      simp at hfl
    have hphase : k.flushFetching.tx.flushDue = none ∧ k.flushFetching.long = k.long := by
      unfold Line.flushFetching
      split <;> exact ⟨hd, rfl⟩
    rw [flushStep_eq_steps, hended, Line.flushAnswered, hphase.1]
    split
    · rename_i hn
      cases hn
    · exact hphase.2
  have hkeeps := (((((chunkIssued_keeps l).trans (chooseOutput_keeps _)).trans (readRequested_keeps _)).trans
    (beginWindUp_keeps _)).trans (markTxDone_keeps _ q)).trans (endDrain_keeps _)
  rw [Line.settled, hstep _ (hkeeps.state.trans hs) ?_, endDrain_eq, markTxDone_eq, beginWindUp_eq]
  · exact (readRequested_onlyTx _).long.trans (by rw [chooseOutput_eq]; exact (chunkIssued_onlyRx l).long)
  · rw [endDrain_eq, markTxDone_eq, beginWindUp_eq]
    exact (readRequested_flushDue _).trans ((chooseOutput_flushDue _).trans ((congrArg TxSide.flushDue
      (chunkIssued_tx l)).trans hdue))

/-- The line that the aborts of R8 leave before they act on the current record. -/
def Line.abortRest (l : Line) : Line :=
  { l.stopFlow.discardFifo.stopInput with
    rx := { l.stopFlow.discardFifo.stopInput.rx with hold := [] }
    tx := { l.tx with flushBoundary := none, flushPhase := none, flushDue := none }
    close := { l.close with phase := some .aborting, drainTimer := none } }

theorem abort_eq (l : Line) (i : LineNo) (time : Word) : l.abort i time = l.abortRest.abortCurrent i time := rfl

theorem abortCurrent_flushDue (l : Line) (i : LineNo) (time : Word) :
    (l.abortCurrent i time).tx.flushDue = l.tx.flushDue := by
  unfold Line.abortCurrent Line.endAfterOutput Line.endRecord
  repeat' split
  all_goals rfl

/-- The aborts leave the FIFO and the hold empty, no flow character waiting and no CONTROL_DONE of a flush due, and keep
the close's mode and the long request (R8). -/
theorem abort_leaves (l : Line) (i : LineNo) (time : Word) : (l.abort i time).rx.fifo = [] ∧
    (l.abort i time).rx.hold = [] ∧ (l.abort i time).flow.slot = none ∧ (l.abort i time).close.mode = l.close.mode ∧
    (l.abort i time).long = l.long ∧ (l.abort i time).tx.flushDue = none := by
  have h := abortCurrent_onlyTx l.abortRest i time
  rw [abort_eq]
  exact ⟨congrArg RxSide.fifo h.rx, congrArg RxSide.hold h.rx, congrArg Flow.slot h.flow,
    (congrArg CloseSide.mode h.close).trans rfl,
    h.long, abortCurrent_flushDue _ i time⟩

/-- A line takes the part's entry to STOPPING by its own state (R16). -/
theorem stopLine_eq (l : Line) (i : LineNo) (time : Word) : l.stopLine i time =
    if inSession l.state = true then
      Line.abort { l with state := .closing, close := { l.close with mode := some .immediate } } i time
    else if l.draining = true then l.abort i time
    else l := by
  cases h : l.state <;> simp [Line.stopLine, h, inSession, Line.draining]

/-- What all lines take does not depend on how the lines stood before. -/
theorem AllLinesTake.of_lines {ls : Vector Line 8} {k : LineNo → Line} (h : AllLinesTake { s with lines := ls } t k) :
    AllLinesTake s t k := h

/-- Settles O6: the state by state rows of a RUN 0, with the lines' closes in RUNNING. -/
theorem runWritten0StopsThePart : Obligations.RunWritten0StopsThePart := by
  unfold Obligations.RunWritten0StopsThePart
  intro s hr
  refine ⟨fun hp => ?_, fun hp ha => ?_, fun hp ha => ?_, fun hp => ?_, fun hp => ?_⟩
  · have hexec : exec .runWritten0 s = .next (State.enterStopping { s with run := false }) := by
      show execRunWritten0 s = _
      rw [execRunWritten0, take_of_running hr]
      simp only [hp]
    have htakes := settleAll_takes { s with
      run := false, part := .stopping, stopLimit := msTimer 100
      lines := Vector.ofFn fun i => (s.line i).stopLine i s.time }
    have hline : ∀ i, State.line { s with
        run := false, part := .stopping, stopLimit := msTimer 100
        lines := Vector.ofFn fun i => (s.line i).stopLine i s.time } i = (s.line i).stopLine i s.time := fun i => by
      simp [State.line]
    rw [funext hline] at htakes
    refine ⟨_, hexec, ?_, fun i hs => ?_⟩
    · rw [← funext fun i => stopLine_eq (s.line i) i s.time]
      exact htakes.of_lines
    · have hti : (State.enterStopping { s with run := false }).line i =
          ((s.line i).stopLine i s.time).settled i s.time (s.rq (txq i)) := htakes.2.1 i
      rw [stopLine_eq, if_pos hs] at hti
      obtain ⟨hfifo, hhold, hslot, hmode, hlong, hdue⟩ := abort_leaves
        { s.line i with state := .closing, close := { (s.line i).close with mode := some .immediate } } i s.time
      have hstate := abort_state
        { s.line i with state := .closing, close := { (s.line i).close with mode := some .immediate } } i s.time
      generalize Line.abort { s.line i with
        state := .closing, close := { (s.line i).close with mode := some .immediate } } i s.time = k at *
      have hkeeps := settled_keeps k i s.time (s.rq (txq i))
      rw [hti]
      refine ⟨hkeeps.state.trans hstate, (settled_closeMode _ _ _ _).trans hmode,
        (settled_long hstate hdue _ _ _).trans hlong, ?_, ?_, ?_⟩
      · rw [settled_rx, chunkIssued_eq]
        split <;> exact hfifo
      · rw [settled_rx, chunkIssued_eq]
        split <;> exact hhold
      · rcases hkeeps.flowSlot with h | h
        · exact h.trans hslot
        · exact h
  all_goals
    show execRunWritten0 s = _
    rw [execRunWritten0, take_of_running hr]
  · simp only [hp]
    exact congrArg Host.Outcome.next (if_pos ha)
  · simp only [hp]
    exact congrArg Host.Outcome.next (if_neg (by rw [Bool.not_eq_true]; exact ha))
  · simp only [hp]
  · rcases hp with hp | hp <;> simp only [hp]

/-! ### A fault -/

/-- Settles O38: each of the five commands enters FAULTED with the failed access. -/
theorem failedAccessFaultsThePart : Obligations.FailedAccessFaultsThePart := by
  unfold Obligations.FailedAccessFaultsThePart
  intro c w cause s x hfatal hr hawaits hx hd
  have hfault : exec c s = .next (s.enterFaulted cause x.addr) := by
    cases c with
    | fetchEnds q =>
      simp only [fatalAccess] at hfatal
      split at hfatal
      next h0 =>
        cases hfatal
        subst h0
        show execFetchEnds 0 s = _
        rw [execFetchEnds, take_of_running hr]
        have hk : rqKind 0 = .ctl := rfl
        simp only [fetchResult_of hawaits hx, hk, hd]
      next => cases hfatal
    | bodyAccessEnds c =>
      cases hfatal
      have hw : (s.cq c).write = .body := of_decide_eq_true hawaits
      show execBodyAccessEnds c s = _
      rw [execBodyAccessEnds, take_of_running hr]
      simp only [hw, hx, hd]
    | headWordEnds c =>
      cases hfatal
      have hw : (s.cq c).write = .headWord := of_decide_eq_true hawaits
      show execHeadWordEnds c s = _
      rw [execHeadWordEnds, take_of_running hr]
      simp only [hw, hx, hd]
    | progressWriteEnds =>
      cases hfatal
      have hw : s.progressActive = true := hawaits
      show execProgressWriteEnds s = _
      rw [execProgressWriteEnds, take_of_running hr]
      simp only [hw, hx, hd]
    | zeroProgressWriteEnds =>
      cases hfatal
      have hw : s.part = .loading := of_decide_eq_true hawaits
      show execZeroProgressWriteEnds s = _
      rw [execZeroProgressWriteEnds, take_of_running hr]
      simp only [hw, hx, hd]
    | _ => cases hfatal
  exact hfault

/-! ### The end of LOADING -/

theorem install_rq (s : State) (r : List Byte) (q : RqNo) : (s.install r).rq q = { s.rq q with
    base := recWord r (0x60 + 8 * q.val), size := some (recHalf r (0x60 + 8 * q.val + 4)).toNat } := by
  simp [State.install, State.rq, setupRqBase, setupRqSize]

theorem install_cq (s : State) (r : List Byte) (c : CqNo) : (s.install r).cq c = { s.cq c with
    base := recWord r (0xE8 + 8 * c.val), size := some (recHalf r (0xE8 + 8 * c.val + 4)).toNat
    delay := (recHalf r (0xE8 + 8 * c.val + 6)).toNat, threshold := (recByte r (0x108 + c.val)).toNat } := by
  simp [State.install, State.cq, setupCqBase, setupCqSize, setupCqDelay, setupCqThreshold]

/-- Settles O40: the read's three outcomes, and the end of the all-zero progress write. -/
theorem loadingEndsInRunning : Obligations.LoadingEndsInRunning := by
  unfold Obligations.LoadingEndsInRunning
  intro s x hr hp
  refine ⟨fun failed hfailed hx => ?_, fun hx hd => ?_⟩
  · have hsetup : ∀ c addr, s.setupFailure c addr = failed c addr := fun c addr => (hfailed c addr).symm
    refine ⟨fun hd => ?_, fun r n hd hn => ?_, fun r hd hn => ?_⟩
    · show execSetupRecordReadEnds s = _
      rw [execSetupRecordReadEnds, take_of_running hr]
      simp only [hp, hx, hd, hsetup]
    · show execSetupRecordReadEnds s = _
      rw [execSetupRecordReadEnds, take_of_running hr]
      simp only [hp, hx, hd, hn, hsetup]
    · refine ⟨((s.dropResult .setupRead).install r).requestZeroProgress, ?_, ?_,
        fun q => install_rq (s.dropResult .setupRead) r q, fun c => install_cq (s.dropResult .setupRead) r c⟩
      · show execSetupRecordReadEnds s = _
        rw [execSetupRecordReadEnds, take_of_running hr]
        simp only [hp, hx, hd, hn]
      · rfl
  · obtain ⟨bs, hbs⟩ := Option.ne_none_iff_exists'.1 hd
    show execZeroProgressWriteEnds s = _
    rw [execZeroProgressWriteEnds, take_of_running hr]
    simp only [hp, hx, hbs]

/-! ### The ends of STOPPING -/

/-- Settles O49: the wait of R186, and the discard of R187. -/
theorem stoppingEndsInStopped : Obligations.StoppingEndsInStopped := by
  unfold Obligations.StoppingEndsInStopped
  intro s hr
  refine ⟨fun waited hwaited => ?_, fun hp hlimit => ?_⟩
  · have hdone : s.stopDone = true ↔ waited := by
      rw [hwaited]
      simp [State.stopDone, Line.atRest, Engine.noneWaiting, State.line, State.cq, Fin.forall_iff, and_assoc]
    have hexec : exec .stoppingEnds s = .next (if s.stopDone = true then s.enterStopped else s) := take_of_running hr _
    refine ⟨fun h => ?_, fun h => ?_⟩
    · rw [hexec, if_pos (hdone.2 h)]
      rfl
    · rw [hexec, if_neg (mt hdone.1 h)]
  · have hlim : s.part = .stopping ∧ s.stopLimit.isSome := ⟨hp, Option.isSome_iff_ne_none.2 hlimit⟩
    have hexec : exec .stopLimitExpiry s = .next
        (if s.expireStopLimit.engine.access.isSome = true then { s.expireStopLimit with stopExpired := true }
          else s.expireStopLimit.enterStopped) :=
      (take_of_running hr _).trans (congrArg _ (if_pos hlim))
    have hline (i : LineNo) : s.expireStopLimit.line i = (s.line i).expireStop := Vector.getElem_map ..
    cases ha : s.engine.access with
    | none =>
      have hidle : s.expireStopLimit.engine.access.isSome = false := by
        simp [State.expireStopLimit, Engine.discardAll, ha]
      refine ⟨s.expireStopLimit.enterStopped, hexec.trans (congrArg _ (if_neg (by simp [hidle]))), ?_, hline⟩
      simp [State.enterStopped, State.expireStopLimit, State.forgetFetches, Engine.discardAll, CplQueue.discard, ha]
    | some a =>
      have hbusy : s.expireStopLimit.engine.access.isSome = true := by
        simp [State.expireStopLimit, Engine.discardAll, ha]
      refine ⟨{ s.expireStopLimit with stopExpired := true }, hexec.trans (congrArg _ (if_pos hbusy)), ?_, hline⟩
      simp [State.expireStopLimit, State.forgetFetches, Engine.discardAll, CplQueue.discard, ha, hp]

end Sys2Proof.Machine
end

section
/-! The register window of sections 9.1, 11.2 and 12.8 bit by bit, POST and RETIRE. -/

namespace Sys2Proof.Machine

/-! ### Words made of fields and flags -/

/-- A flag of a register stands in its own bit. -/
theorem getLsbD_flag (v : Word) {n : Nat} (hv : v = BitVec.twoPow 32 n) (hn : n < 32) (b : Bool) (k : Nat) :
    (if b = true then v else 0).getLsbD k = (b && decide (n = k)) := by
  have hbound : n = k → k < 32 := fun h => h ▸ hn
  cases b
  · simp
  · simp only [hv, if_true, BitVec.getLsbD_twoPow, Bool.true_and]
    by_cases h : n = k
    · simp [h, hbound h]
    · simp [h]

/-- The bits of STATUS (section 12.8). -/
theorem statusWord_getLsbD (s : State) (k : Nat) : s.statusWord.getLsbD k =
    (s.part.code.getLsbD k || (decide (4 ≤ k) && s.cause.code.getLsbD (k - 4)) ||
      (s.discarded && decide (8 = k)) || (s.postRejected && decide (9 = k)) ||
      (s.retireRejected && decide (10 = k))) := by
  have hpart : (s.part.code.setWidth 32).getLsbD k = s.part.code.getLsbD k := by
    rw [BitVec.getLsbD_setWidth, Bool.and_eq_right_iff_imp]
    intro h
    have := BitVec.lt_of_getLsbD h
    simp; omega
  have hcause : (s.cause.code.setWidth 32 <<< 4).getLsbD k = (decide (4 ≤ k) && s.cause.code.getLsbD (k - 4)) := by
    rw [BitVec.getLsbD_shiftLeft, BitVec.getLsbD_setWidth]
    by_cases hc : s.cause.code.getLsbD (k - 4) = true
    · have := BitVec.lt_of_getLsbD hc
      have h1 : k < 32 := by omega
      have h2 : k - 4 < 32 := by omega
      by_cases h4 : 4 ≤ k <;> simp [hc, h1, h2, h4, Nat.not_lt.2, Nat.lt_of_not_le]
    · simp [hc]
  rw [State.statusWord]
  simp only [BitVec.getLsbD_or, hpart, hcause]
  rw [getLsbD_flag 0x100 (n := 8) rfl (by decide), getLsbD_flag 0x200 (n := 9) rfl (by decide),
    getLsbD_flag 0x400 (n := 10) rfl (by decide)]

theorem statusWord_part (s : State) : s.statusWord.extractLsb' 0 3 = s.part.code := by
  apply BitVec.eq_of_getLsbD_eq
  intro k hk
  have h4 : ¬ 4 ≤ k := by omega
  have h8 : ¬ 8 = k ∧ ¬ 9 = k ∧ ¬ 10 = k := by omega
  simp [statusWord_getLsbD, hk, h4, h8]

theorem statusWord_cause (s : State) : s.statusWord.extractLsb' 4 3 = s.cause.code := by
  apply BitVec.eq_of_getLsbD_eq
  intro k hk
  have h8 : ¬ 8 = 4 + k ∧ ¬ 9 = 4 + k ∧ ¬ 10 = 4 + k := by omega
  have hpart : s.part.code.getLsbD (4 + k) = false := BitVec.getLsbD_of_ge _ _ (by omega)
  rw [BitVec.getLsbD_extractLsb', statusWord_getLsbD]
  simp [hk, h8, hpart]

/-- The flags of STATUS, and the bits that it leaves 0. -/
theorem statusWord_flags (s : State) : s.statusWord.getLsbD 8 = s.discarded ∧
    s.statusWord.getLsbD 9 = s.postRejected ∧ s.statusWord.getLsbD 10 = s.retireRejected ∧
    ∀ k, k = 3 ∨ k = 7 ∨ 11 ≤ k → s.statusWord.getLsbD k = false := by
  have hat (k : Nat) (h : 8 ≤ k) : s.statusWord.getLsbD k =
      (s.discarded && decide (8 = k) || s.postRejected && decide (9 = k) || s.retireRejected && decide (10 = k)) := by
    rw [statusWord_getLsbD, BitVec.getLsbD_of_ge s.part.code _ (by omega),
      BitVec.getLsbD_of_ge s.cause.code _ (by omega)]
    simp
  refine ⟨?_, ?_, ?_, fun k hk => ?_⟩
  iterate 3
    rw [hat _ (by decide)]
    simp
  have hpart : s.part.code.getLsbD k = false := BitVec.getLsbD_of_ge _ _ (by omega)
  have hflags : ¬ 8 = k ∧ ¬ 9 = k ∧ ¬ 10 = k := by omega
  have hcause : (decide (4 ≤ k) && s.cause.code.getLsbD (k - 4)) = false := by
    by_cases h4 : 4 ≤ k
    · rw [BitVec.getLsbD_of_ge _ _ (by omega), Bool.and_false]
    · simp [h4]
  simp [statusWord_getLsbD, hpart, hcause, hflags]

/-- The bits of NOTIFY (section 12.8). -/
theorem notifyWord_getLsbD (s : State) (k : Nat) : s.notifyWord.getLsbD k =
    (s.isAsserted 0 && decide (0 = k) || s.isAsserted 1 && decide (1 = k) || s.isAsserted 2 && decide (2 = k) ||
      s.isAsserted 3 && decide (3 = k) || s.notifyFault && decide (8 = k)) := by
  rw [State.notifyWord]
  simp only [BitVec.getLsbD_or]
  rw [getLsbD_flag 1 (n := 0) rfl (by decide), getLsbD_flag 2 (n := 1) rfl (by decide),
    getLsbD_flag 4 (n := 2) rfl (by decide), getLsbD_flag 8 (n := 3) rfl (by decide),
    getLsbD_flag 0x100 (n := 8) rfl (by decide)]

theorem notifyWord_queue (s : State) (c : CqNo) : s.notifyWord.getLsbD c.val = s.isAsserted c := by
  rw [notifyWord_getLsbD]
  match c with
  | 0 => simp
  | 1 => simp
  | 2 => simp
  | 3 => simp

/-- A field of a written word, given by its place. -/
theorem extractLsb'_eq_of_toNat (v : Word) (start len : Nat) (q : BitVec len)
    (h : q.toNat = v.toNat / 2 ^ start % 2 ^ len) : v.extractLsb' start len = q := by
  apply BitVec.eq_of_toNat_eq
  rw [BitVec.extractLsb'_toNat, Nat.shiftRight_eq_div_pow, h]

theorem windowRead_of_running {s : State} (hr : s.resetHeld = false) : s.windowRead 0x04 false = s.statusWord ∧
    s.windowRead 0x00 false = (if s.run then 1 else 0) ∧ s.windowRead 0x08 false = s.setupAddr ∧
    s.windowRead 0x14 false = s.notifyWord ∧ s.windowRead 0x18 false = s.faultAddr ∧
    s.windowRead 0x1C false = s.time := by
  simp [State.windowRead, hr]

/-- Settles O7: the reads by the bits of their words, and the written word by its fields. -/
theorem registerWindowAnswers : Obligations.RegisterWindowAnswers := by
  unfold Obligations.RegisterWindowAnswers
  refine ⟨fun s hr => ?_, fun v => ?_⟩
  · obtain ⟨hstatus, hrun, hsetup, hnotify, hfault, htime⟩ := windowRead_of_running hr
    obtain ⟨hdiscarded, hpost, hretire, hzero⟩ := statusWord_flags s
    have hexec : exec .statusRead s =
        .next { s with readData := s.statusWord, postRejected := false, retireRejected := false } := by
      show execStatusRead s = _
      simp [execStatusRead, hr]
    refine ⟨⟨_, hexec, rfl, hstatus.symm, ?_, ?_, hdiscarded, hpost, hretire, hzero⟩, hrun, hsetup, hfault, htime,
      fun c => ?_, ?_, fun k hk hk8 => ?_, fun offset narrow h => ?_, fun c => ?_, fun offset narrow value h => ?_⟩
    · refine (statusWord_part s).trans ?_
      cases s.part <;> rfl
    · refine (statusWord_cause s).trans ?_
      cases s.cause <;> rfl
    · rw [hnotify, notifyWord_queue]
      rfl
    · rw [hnotify, notifyWord_getLsbD]
      simp
    · have : ¬ 0 = k ∧ ¬ 1 = k ∧ ¬ 2 = k ∧ ¬ 3 = k := by omega
      simp [hnotify, notifyWord_getLsbD, this, Ne.symm hk8]
    · rcases h with rfl | h
      · simp [State.windowRead]
      · simp only [List.mem_cons, List.not_mem_nil, or_false, not_or] at h
        simp only [State.windowRead]
        split <;> simp_all
    · simp [State.intAsserted, hr, State.isAsserted, State.cq]
    · refine ⟨?_, take_of_running hr fun s => s⟩
      cases narrow with
      | true => rfl
      | false =>
        simp only [ignoredWrite, Bool.false_or, Bool.not_eq_true', Bool.or_eq_false_iff, decide_eq_false_iff_not] at h
        obtain ⟨⟨⟨h0, h8⟩, hC⟩, h10⟩ := h
        show (match offset with
          | 0x00 => _ | 0x08 => _ | 0x0C => _ | 0x10 => _ | _ => _) = _
        split
        · exact absurd rfl h0
        · exact absurd rfl h8
        · exact absurd rfl hC
        · exact absurd rfl h10
        · rfl
  · refine ⟨rfl, rfl, fun q tail hq htail => ?_, fun q head hq hhead => ?_⟩
    · show Instr.post _ _ = _
      rw [extractLsb'_eq_of_toNat v 16 5 q hq, extractLsb'_eq_of_toNat v 0 16 tail (by simpa using htail)]
    · show (if _ then Instr.retireArm _ _ else Instr.retire _ _) = _
      rw [extractLsb'_eq_of_toNat v 16 4 q hq, extractLsb'_eq_of_toNat v 0 16 head (by simpa using hhead)]

/-! ### POST -/

theorem postPasses_iff (s : State) (b : BitVec 5) (tail : Half) : s.postPasses b tail = true ↔
    s.part = .running ∧ ∃ q : RqNo, b.toNat = q.val ∧ tail.toNat < (s.rq q).size.getD 0 := by
  simp only [State.postPasses, Bool.and_eq_true, decide_eq_true_eq, and_assoc]
  refine and_congr_right fun _ => ⟨fun ⟨hb, ht⟩ => ⟨_, ?_, ht⟩, fun ⟨q, hb, ht⟩ => ?_⟩
  · simp [Fin.ofNat]; omega
  · have : Fin.ofNat 17 b.toNat = q := Fin.ext (by simp [Fin.ofNat, hb])
    exact ⟨by omega, this ▸ ht⟩

/-- What a consumer asks for does not look at the queue in the state. -/
theorem consumerAsks_setRq (s : State) (p q : RqNo) (x y : ReqQueue) :
    (s.setRq p x).consumerAsks q y = s.consumerAsks q y := rfl

theorem setRq_setRq (s : State) (q : RqNo) (x y : ReqQueue) : (s.setRq q x).setRq q y = s.setRq q y := by
  simp [State.setRq]

/-- Settles O9: the checks of R156 and R194, then the consumer is asked. -/
theorem postMovesTheTail : Obligations.PostMovesTheTail := by
  unfold Obligations.PostMovesTheTail
  intro s b tail hr
  refine ⟨fun q n hp hb hn ht => ?_, fun h => ?_⟩
  · have hpass : s.postPasses b tail = true := (postPasses_iff s b tail).2 ⟨hp, q, hb, by simp [hn, ht]⟩
    have hq : Fin.ofNat 17 b.toNat = q := Fin.ext (by simp [Fin.ofNat, hb])
    have hexec : exec (.post b tail) s = .next ((s.setRq q { s.rq q with tail := tail.toNat }).askConsumer q) := by
      show execPost b tail s = _
      rw [execPost, take_of_running hr]
      simp only [hpass, if_true, hq]
    refine ⟨_, hexec, ?_⟩
    rw [askConsumer_eq, State.rq_setRq_self, consumerAsks_setRq]
    by_cases hasks : s.consumerAsks q { s.rq q with tail := tail.toNat } = true
    · simp only [hasks, if_true, setRq_setRq, and_true, Bool.or_true]
      refine ⟨?_, fun p hne => State.rq_setRq_ne s _ hne, State.rq_setRq_self ..⟩
      by_cases h0 : q = 0 <;>
        simp [h0, State.setRq, State.fetchRequest, ringEntry, State.rq]
    · simp only [hasks]
      refine ⟨by simp [State.setRq], fun p hne => State.rq_setRq_ne s _ hne, ?_⟩
      simp
  · have hfail : ¬ s.postPasses b tail = true := by
      rw [postPasses_iff]
      rintro ⟨hp, q, hb, ht⟩
      rcases h with h | h | h
      · exact h hp
      · omega
      · have := h q hb
        omega
    show execPost b tail s = _
    rw [execPost, take_of_running hr]
    exact congrArg _ (if_neg hfail)

/-! ### RETIRE -/

theorem retirePasses_iff (s : State) (b : BitVec 4) (head : Half) : s.retirePasses b head = true ↔
    (s.part = .running ∨ s.part = .stopping) ∧ ∃ c : CqNo, b.toNat = c.val ∧
      head.toNat < (s.cq c).size.getD 0 ∧
      ringDist head.toNat (s.cq c).head ((s.cq c).size.getD 0) ≤ (s.cq c).unretired := by
  simp only [State.retirePasses, State.reporting, Bool.and_eq_true, decide_eq_true_eq, and_assoc]
  refine and_congr_right fun _ => ⟨fun ⟨hb, ht⟩ => ⟨_, ?_, ht⟩, fun ⟨c, hb, ht⟩ => ?_⟩
  · simp [Fin.ofNat]; omega
  · have : Fin.ofNat 4 b.toNat = c := Fin.ext (by simp [Fin.ofNat, hb])
    exact ⟨by omega, this ▸ ht⟩

/-- What ARM decides (R144): the threshold, then the zero count, then the zero delay. -/
theorem arm_eq (x : CplQueue) : x.arm =
    if x.threshold ≤ x.unretired then { x with notif := .asserted, timer := none }
    else if x.unretired = 0 then { x with notif := .armed, timer := none }
    else if x.delay = 0 then { x with notif := .asserted, timer := none }
    else { x with notif := .armed, timer := some x.delay } := by
  have hun : ({ x with notif := .armed, timer := none } : CplQueue).unretired = x.unretired := rfl
  simp only [CplQueue.arm, CplQueue.armedCount, hun]
  by_cases hthr : x.threshold ≤ x.unretired
  · have : ¬ (x.unretired = 0 ∧ x.threshold ≠ 0) := by omega
    simp [hthr, this]
  · by_cases h0 : x.unretired = 0
    · have : x.threshold ≠ 0 := by omega
      simp [h0, this]
    · simp [hthr, h0]

/-- A RETIRE that passes: the queue as `f` leaves it, and the body write that the fullness held back. -/
theorem retireWith_eq {s : State} {b : BitVec 4} {head : Half} {c : CqNo} (hpass : s.retirePasses b head = true)
    (hb : b.toNat = c.val) (f : CplQueue → CplQueue) (x : CplQueue) (hx : x = { s.cq c with head := head.toNat })
    (hf : ∃ n t, f x = { x with notif := n, timer := t }) :
    s.retireWith b head f = { s.setCq c { f x with
        write := if x.staging ≠ [] ∧ x.write = .noWrite ∧ x.isFull = false then .body else x.write } with
      engine := { s.engine with listA := s.engine.listA ++ bodyRequests c x } } := by
  have hc : Fin.ofNat 4 b.toNat = c := Fin.ext (by simp [Fin.ofNat, hb])
  have hrep : s.reporting = true := decide_eq_true ((retirePasses_iff s b head).1 hpass).1
  obtain ⟨n, t, hf⟩ := hf
  rw [State.retireWith, if_pos hpass]
  simp only [hc, ← hx]
  rw [beginEntry_eq _ _ (show (s.setCq c (f x)).reporting = true from hrep), State.cq_setCq_self, hf, setCq_setCq]
  rfl

/-- Settles O10: the checks of R142 and R194, and the notification by R144. -/
theorem retireMovesTheHead : Obligations.RetireMovesTheHead := by
  unfold Obligations.RetireMovesTheHead
  intro s b head hr
  refine ⟨fun c n hp hb hn hh hd x hx w hw e he => ?_, fun h => ?_⟩
  · have hpass : s.retirePasses b head = true :=
      (retirePasses_iff s b head).2 ⟨hp, c, hb, by simpa [hn] using hh, by simpa [hn] using hd⟩
    have hplain := retireWith_eq hpass hb id x hx ⟨x.notif, x.timer, rfl⟩
    have harm := retireWith_eq hpass hb CplQueue.arm x hx (by
      rw [arm_eq]
      split_ifs <;> exact ⟨_, _, rfl⟩)
    have hretire : exec (.retire b head) s = .next (s.retireWith b head id) :=
      take_of_running hr (State.retireWith · b head id)
    have hretireArm : exec (.retireArm b head) s = .next (s.retireWith b head CplQueue.arm) :=
      take_of_running hr (State.retireWith · b head CplQueue.arm)
    rw [hplain, ← hw, ← he] at hretire
    rw [harm, ← hw, ← he] at hretireArm
    refine ⟨⟨_, hretire, rfl, fun d hne => State.cq_setCq_ne s _ hne, State.cq_setCq_self ..⟩, _, hretireArm, rfl,
      fun d hne => State.cq_setCq_ne s _ hne, ?_⟩
    refine (State.cq_setCq_self ..).trans ?_
    rw [arm_eq]
    split_ifs <;> rfl
  · have hfail : ¬ s.retirePasses b head = true := by
      rw [retirePasses_iff]
      rintro ⟨hp, c, hb, hh, hd⟩
      rcases h with h | h | h
      · rcases hp with hp | hp
        · exact h.1 hp
        · exact h.2 hp
      · omega
      · have := h c hb
        omega
    exact ⟨(take_of_running hr (State.retireWith · b head id)).trans (congrArg _ (if_neg hfail)),
      (take_of_running hr (State.retireWith · b head CplQueue.arm)).trans (congrArg _ (if_neg hfail))⟩

end Sys2Proof.Machine
end

section
/-! The Memory Engine's grants and the ends of its accesses (sections 10.3, 10.4, 10.7). -/

namespace Sys2Proof.Machine

/-! ### Turns -/

/-- The members after `last` stand in the order of their turns: those before `m` come sooner than `m`. -/
theorem membersAfter_split : ∀ last m : Member,
    membersAfter last = (membersAfter last).take (turnsAfter last m) ++
      m :: (membersAfter last).drop (turnsAfter last m + 1) ∧
    ∀ x ∈ (membersAfter last).take (turnsAfter last m), turnsAfter last x < turnsAfter last m := by
  decide

/-- The request that is next in turn is the one that the round robin finds. -/
theorem roundRobin_of_nextInTurn {last : Member} {rs : List Request} {r : Request} (h : NextInTurn last rs r) :
    roundRobin last rs = some (r.requester.member, r) := by
  obtain ⟨hfind, hmin⟩ := h
  obtain ⟨hsplit, hsooner⟩ := membersAfter_split last r.requester.member
  rw [roundRobin, hsplit, List.findSome?_eq_some_iff]
  refine ⟨_, _, _, rfl, by simp [hfind], fun m hm => ?_⟩
  simp only [Option.map_eq_none_iff, List.find?_eq_none, decide_eq_true_eq]
  rintro x hx rfl
  exact absurd (hmin x hx) (Nat.not_le.2 (hsooner _ hm))

theorem roundRobin_nil (last : Member) : roundRobin last [] = none := by
  simp [roundRobin]

/-- A list with a request has one that is next in turn. -/
theorem exists_nextInTurn (last : Member) {rs : List Request} (h : rs ≠ []) : ∃ r, NextInTurn last rs r := by
  obtain ⟨first, rest, rfl⟩ := List.exists_cons_of_ne_nil h
  obtain ⟨x, hx, hmin⟩ := (first :: rest).toFinset.exists_min_image (fun x => turnsAfter last x.requester.member)
    ⟨first, by simp⟩
  have hfound : ((first :: rest).find? fun y => y.requester.member = x.requester.member).isSome := by
    rw [List.find?_isSome]
    exact ⟨x, List.mem_toFinset.1 hx, by simp⟩
  obtain ⟨r, hr⟩ := Option.isSome_iff_exists.1 hfound
  have hmember : r.requester.member = x.requester.member := of_decide_eq_true (List.find?_some hr :)
  exact ⟨r, by rw [hmember]; exact hr, fun y hy => by
    rw [hmember]
    exact hmin y (List.mem_toFinset.2 hy)⟩

/-! ### Grants -/

/-- A grant that picks request `r` begins its access. -/
theorem exec_accessGrant {s : State} (hr : s.resetHeld = false) (hmay : s.mayGrant = true) {r : Request} {e : Engine}
    (hpick : s.engine.pick = some (r, e)) : exec .accessGrant s = .next (({ s with engine := e }).beginAccess r) := by
  show execAccessGrant s = _
  rw [execAccessGrant, take_of_running hr]
  simp only [hmay, hpick, if_true]

/-- The access of a granted request (R170): a progress write takes the heads as they stand (R159). -/
theorem beginAccess_eq (s : State) (r : Request) : s.beginAccess r = { s with
    progressWaits := s.progressWaits && decide (r.requester ≠ .progress)
    progressActive := s.progressActive || decide (r.requester = .progress)
    engine := { s.engine with
      access := some
        { request := if r.requester = .progress then { r with transfer := .write (progressBytes s.reqQueues) } else r
          began := s.time, deliver := true } } } := by
  unfold State.beginAccess
  cases hr : r.requester <;> simp

/-- Settles O34: class A in order, then the classes B, C and D in turn. -/
theorem accessGrantTakesTurns : Obligations.AccessGrantTakesTurns := by
  unfold Obligations.AccessGrantTakesTurns
  intro s hr
  refine ⟨fun h => ?_, fun hidle hsoft hpart g hg => ?_⟩
  · show execAccessGrant s = _
    rw [execAccessGrant, take_of_running hr]
    by_cases hmay : s.mayGrant = true
    · have hempty : s.engine.listA = [] ∧ s.engine.listB = [] ∧ s.engine.listC = [] ∧ s.engine.listD = [] := by
        simp only [State.mayGrant, Bool.and_eq_true, Option.isNone_iff_eq_none, Bool.not_eq_true',
          decide_eq_true_eq] at hmay
        rcases h with h | h | h | h | h
        · exact absurd hmay.1.1 h
        · simp [h] at hmay
        · simp [h] at hmay
        · simp [h] at hmay
        · exact h
      have hnone : s.engine.pick = none := by simp [Engine.pick, hempty, roundRobin_nil]
      simp only [hmay, hnone, if_true]
    · simp only [hmay]
      rfl
  · have hmay : s.mayGrant = true := by simp [State.mayGrant, hidle, hsoft, hpart]
    have hgrant {r e} (hpick : s.engine.pick = some (r, e)) : exec .accessGrant s = .next (g r e) := by
      rw [exec_accessGrant hr hmay hpick, beginAccess_eq, hg]
    refine ⟨fun r rest ha => hgrant ?_, fun ha r ht => hgrant ?_, fun ha hb r ht => hgrant ?_,
      fun ha hb hc r ht => hgrant ?_, fun last rs h => exists_nextInTurn last h⟩
    · simp [Engine.pick, ha]
    · simp [Engine.pick, ha, roundRobin_of_nextInTurn ht]
    · simp [Engine.pick, ha, hb, roundRobin_nil, roundRobin_of_nextInTurn ht]
    · simp [Engine.pick, ha, hb, hc, roundRobin_nil, roundRobin_of_nextInTurn ht]

/-! ### The ends of accesses -/

/-- The access in progress ends with `data` at its timeout, an error response or a normal response for its whole
transfer (R173, R177). -/
theorem exec_accessEnds {s : State} {a : Access} {c : Instr} {data : Option (List Byte)} (hr : s.resetHeld = false)
    (ha : s.engine.access = some a)
    (hc : (c = .accessTimeout ∧ data = none) ∨ (c = .busResponse .error ∧ data = none) ∨
      (∃ n bs, a.request.transfer = .read n ∧ bs.length = n ∧ c = .busResponse (.normal bs) ∧ data = some bs) ∨
      (∃ ws bs, a.request.transfer = .write ws ∧ c = .busResponse (.normal bs) ∧ data = some [])) :
    exec c s = .next (s.endAccess a data) := by
  have hresponse (reply : BusReply) : exec (.busResponse reply) s = execBusResponse reply s := rfl
  rcases hc with ⟨rfl, rfl⟩ | ⟨rfl, rfl⟩ | ⟨n, bs, ht, hlen, rfl, rfl⟩ | ⟨ws, bs, ht, rfl, rfl⟩
  · show execAccessTimeout s = _
    rw [execAccessTimeout, take_of_running hr]
    simp only [ha]
  · rw [hresponse, execBusResponse, take_of_running hr]
    simp only [ha]
  · rw [hresponse, execBusResponse, take_of_running hr]
    simp only [ha, ht, Transfer.reply, hlen, if_true]
  · rw [hresponse, execBusResponse, take_of_running hr]
    simp only [ha, ht, Transfer.reply]

/-- Settles O35: the result reported, and the bytes of a write in memory or partly there. -/
theorem accessEndsWithItsResult : Obligations.AccessEndsWithItsResult := by
  unfold Obligations.AccessEndsWithItsResult
  refine ⟨fun s => ?_, fun s a c data hr ha hc => ?_⟩
  · show execBusResponse .late s = _
    unfold execBusResponse State.take
    split_ifs
    · rfl
    · cases ha : s.engine.access <;> simp only [ha]
  · obtain ⟨m, n, heq, hread, hwrite⟩ := endAccess_eq s a data
    refine ⟨_, (exec_accessEnds hr ha hc).trans (congrArg _ heq), rfl, hread, fun ws hws => ?_⟩
    obtain ⟨hok, hfailed⟩ := hwrite ws hws
    refine ⟨fun x hx => ?_, fun hd => ?_, fun hd => ?_⟩
    · cases data with
      | none =>
        obtain ⟨rfl, rfl⟩ := hfailed rfl
        exact memRead_memLandBytes_outside _ _ _ _ _ hx
      | some bs =>
        obtain ⟨rfl, rfl⟩ := hok (by simp)
        exact memRead_memWriteBytes_outside _ _ _ _ hx
    · obtain ⟨rfl, rfl⟩ := hok hd
      exact ⟨rfl, fun k hk => memRead_memWriteBytes_inside _ _ _ _ hk⟩
    · obtain ⟨rfl, rfl⟩ := hfailed hd
      exact ⟨fun x hx => memRead_memLandBytes_outside _ _ _ _ _ hx, rfl,
        fun k hk => memRead_memLandBytes_inside _ _ _ _ _ hk⟩

end Sys2Proof.Machine
end

section
/-! The validity of a Setup Record (R182): its checks in the order of the table. -/

namespace Sys2Proof.Machine

/-! ### The first check of a list that fails -/

/-- The offset of the first check of a list that fails. -/
def failedAt (l : List (Nat × Bool)) : Option Nat := (l.find? fun c => !c.2).map Prod.fst

@[simp] theorem failedAt_nil : failedAt [] = none := rfl

@[simp] theorem failedAt_cons (k : Nat) (b : Bool) (l : List (Nat × Bool)) :
    failedAt ((k, b) :: l) = if b = true then failedAt l else some k := by
  cases b <;> rfl

theorem failedAt_append (l m : List (Nat × Bool)) : failedAt (l ++ m) = (failedAt l).or (failedAt m) := by
  simp only [failedAt, List.find?_append]
  cases l.find? fun c => !c.2 <;> rfl

theorem failedAt_append_of_none {l : List (Nat × Bool)} (h : failedAt l = none) (m : List (Nat × Bool)) :
    failedAt (l ++ m) = failedAt m := by
  rw [failedAt_append, h, Option.none_or]

theorem failedAt_append_of_some {l : List (Nat × Bool)} {k : Nat} (h : failedAt l = some k)
    (m : List (Nat × Bool)) : failedAt (l ++ m) = some k := by
  rw [failedAt_append, h, Option.some_or]

/-- The checks of the blocks `0` to `n - 1` all pass exactly when those of every block do. -/
theorem failedAt_blocks_eq_none_iff (f : Nat → List (Nat × Bool)) (n : Nat) :
    failedAt ((List.range n).flatMap f) = none ↔ ∀ k < n, failedAt (f k) = none := by
  simp only [failedAt, Option.map_eq_none_iff, List.find?_eq_none, List.mem_flatMap, List.mem_range]
  exact ⟨fun h k hk x hx => h x ⟨k, hk, hx⟩, fun h x ⟨k, hk, hx⟩ => h k hk x hx⟩

/-- The first block that fails a check gives the offset. -/
theorem failedAt_blocks_of_first (f : Nat → List (Nat × Bool)) {n k off : Nat} (hk : k < n)
    (hbefore : ∀ m < k, failedAt (f m) = none) (hoff : failedAt (f k) = some off) :
    failedAt ((List.range n).flatMap f) = some off := by
  obtain ⟨d, rfl⟩ := Nat.exists_eq_add_of_le' (Nat.succ_le_of_lt hk)
  have hsplit : List.range (d + k.succ) = List.range k ++ k :: (List.range d).map (k + 1 + ·) := by
    rw [Nat.add_comm, List.range_add, List.range_succ]
    simp
  rw [hsplit, List.flatMap_append, failedAt_append_of_none ((failedAt_blocks_eq_none_iff f k).2 hbefore),
    List.flatMap_cons, failedAt_append_of_some hoff]

/-! ### The checks of a window, of a ring and of the progress block -/

theorem isRingSize_iff (n : Nat) : isRingSize n = true ↔ RingSize n := by
  simp only [isRingSize, List.contains_eq_mem, decide_eq_true_eq, List.mem_cons, List.not_mem_nil, or_false]
  constructor
  · rintro (rfl | rfl | rfl | rfl | rfl | rfl | rfl | rfl | rfl)
    exacts [⟨2, by decide⟩, ⟨3, by decide⟩, ⟨4, by decide⟩, ⟨5, by decide⟩, ⟨6, by decide⟩, ⟨7, by decide⟩,
      ⟨8, by decide⟩, ⟨9, by decide⟩, ⟨10, by decide⟩]
  · rintro ⟨k, hk2, hk10, rfl⟩
    interval_cases k <;> decide

theorem failedAt_windowChecks (r : List Byte) (n : Nat) : (WindowPasses r n → failedAt (windowChecks r n) = none) ∧
    (¬ WindowPasses r n → failedAt (windowChecks r n) = some
      (if (recWord r (12 * n + 4)).toNat % 16 ≠ 0 then 12 * n + 4
       else if (recWord r (12 * n)).toNat % 16 ≠ 0 then 12 * n
       else 12 * n + 4)) := by
  have hzero : recWord r (12 * n + 4) = 0 ↔ (recWord r (12 * n + 4)).toNat = 0 :=
    ⟨fun h => by rw [h]; rfl, fun h => BitVec.eq_of_toNat_eq h⟩
  have hlen : (setupWindow r n).len = recWord r (12 * n + 4) := rfl
  have hbase : (setupWindow r n).base = recWord r (12 * n) := rfl
  simp only [windowChecks, WindowPasses, hlen, hbase, hzero]
  by_cases h0 : (recWord r (12 * n + 4)).toNat = 0
  · simp [h0]
  · by_cases h1 : (recWord r (12 * n + 4)).toNat % 16 = 0
    · by_cases h2 : (recWord r (12 * n)).toNat % 16 = 0
      · simp [h0, h1, h2]
      · simp [h0, h1, h2]
    · simp [h0, h1]

theorem failedAt_rqChecks (r : List Byte) (q : RqNo) : (RequestRingPasses r q → failedAt (rqChecks r q.val) = none) ∧
    (¬ RequestRingPasses r q →
      (¬ RingSize (recHalf r (0x60 + 8 * q.val + 4)).toNat →
        failedAt (rqChecks r q.val) = some (0x60 + 8 * q.val + 4)) ∧
      (RingSize (recHalf r (0x60 + 8 * q.val + 4)).toNat →
        failedAt (rqChecks r q.val) = some (0x60 + 8 * q.val))) := by
  have hq : Fin.ofNat 17 q.val = q := Fin.ext (by simp [Fin.ofNat, Nat.mod_eq_of_lt q.isLt])
  have hentry : entrySize q = ringEntry q := rfl
  simp only [rqChecks, hq, hentry, failedAt_cons, failedAt_nil, decide_eq_true_eq]
  simp only [setupRqSize, setupRqBase, RequestRingPasses]
  by_cases hsize : RingSize (recHalf r (0x60 + 8 * q.val + 4)).toNat
  · have hring := (isRingSize_iff _).2 hsize
    by_cases hbase : (recWord r (0x60 + 8 * q.val)).toNat % ringEntry q = 0
    · simp +contextual [hsize, hring, hbase]
    · simp [hsize, hring, hbase]
  · have hring := mt (isRingSize_iff _).1 hsize
    simp [hsize, hring]

theorem failedAt_cqChecks (r : List Byte) (c : CqNo) :
    (CompletionRingPasses r c → failedAt (cqChecks r c.val) = none) ∧
    (¬ CompletionRingPasses r c →
      (¬ RingSize (recHalf r (0xE8 + 8 * c.val + 4)).toNat →
        failedAt (cqChecks r c.val) = some (0xE8 + 8 * c.val + 4)) ∧
      (RingSize (recHalf r (0xE8 + 8 * c.val + 4)).toNat → failedAt (cqChecks r c.val) = some
        (if (recWord r (0xE8 + 8 * c.val)).toNat % 16 = 0 ∧
            (recWord r (0xE8 + 8 * c.val)).toNat + (recHalf r (0xE8 + 8 * c.val + 4)).toNat * 16 ≤ 2 ^ 32
          then 0x108 + c.val else 0xE8 + 8 * c.val))) := by
  have htop : maxAddress + 1 = 2 ^ 32 := rfl
  simp only [cqChecks, failedAt_cons, failedAt_nil, decide_eq_true_eq]
  simp only [setupCqSize, setupCqBase, setupCqThreshold, CompletionRingPasses, htop]
  by_cases hsize : RingSize (recHalf r (0xE8 + 8 * c.val + 4)).toNat
  · have hring := (isRingSize_iff _).2 hsize
    by_cases hbase : (recWord r (0xE8 + 8 * c.val)).toNat % 16 = 0 ∧
        (recWord r (0xE8 + 8 * c.val)).toNat + (recHalf r (0xE8 + 8 * c.val + 4)).toNat * 16 ≤ 2 ^ 32
    · by_cases hthr : 1 ≤ (recByte r (0x108 + c.val)).toNat
      · simp only [hsize, hring, hbase, hthr, and_self, if_true, not_true_eq_false, false_implies, implies_true]
      · simp only [hsize, hring, hbase, hthr, and_self, and_false, if_true, if_false, not_true_eq_false,
          not_false_eq_true, false_implies, true_implies]
    · simp only [hsize, hring, hbase, if_true, if_false, false_and, and_false, not_true_eq_false,
        not_false_eq_true, false_implies, true_implies, true_and]
  · have hring := mt (isRingSize_iff _).1 hsize
    simp [hsize, hring]

theorem failedAt_progress (r : List Byte) :
    failedAt [(0x10C, decide ((setupProgress r).toNat % 4 = 0 ∧ (setupProgress r).toNat + 33 ≤ maxAddress))] =
      if (recWord r 0x10C).toNat % 4 = 0 ∧ (recWord r 0x10C).toNat + 33 ≤ 0xFFFFFFFF then none else some 0x10C := by
  simp only [failedAt_cons, failedAt_nil, decide_eq_true_eq]
  rfl

/-! ### The record -/

/-- The checks of R182's table, block by block. -/
theorem setupFailureAt_eq (r : List Byte) : setupFailureAt r = failedAt ((List.range 8).flatMap (windowChecks r) ++
    ((List.range 17).flatMap (rqChecks r) ++ ((List.range 4).flatMap (cqChecks r) ++
      [(0x10C, decide ((setupProgress r).toNat % 4 = 0 ∧ (setupProgress r).toNat + 33 ≤ maxAddress))]))) := by
  rw [setupFailureAt, setupChecks]
  simp only [List.append_assoc]
  rfl

/-- Settles O39: the blocks in the order of R182's table, each passing or giving the offset of its failing field. -/
theorem setupRecordValidity : Obligations.SetupRecordValidity := by
  unfold Obligations.SetupRecordValidity
  intro r
  have hwindow (n : Nat) : failedAt (windowChecks r n) = none ↔ WindowPasses r n :=
    ⟨fun h => by_contra fun hn => by simp [(failedAt_windowChecks r n).2 hn] at h, (failedAt_windowChecks r n).1⟩
  have hrq (q : RqNo) : failedAt (rqChecks r q.val) = none ↔ RequestRingPasses r q := by
    refine ⟨fun h => by_contra fun hn => ?_, (failedAt_rqChecks r q).1⟩
    obtain ⟨hbad, hgood⟩ := (failedAt_rqChecks r q).2 hn
    by_cases hsize : RingSize (recHalf r (0x60 + 8 * q.val + 4)).toNat
    · simp [hgood hsize] at h
    · simp [hbad hsize] at h
  have hcq (c : CqNo) : failedAt (cqChecks r c.val) = none ↔ CompletionRingPasses r c := by
    refine ⟨fun h => by_contra fun hn => ?_, (failedAt_cqChecks r c).1⟩
    obtain ⟨hbad, hgood⟩ := (failedAt_cqChecks r c).2 hn
    by_cases hsize : RingSize (recHalf r (0xE8 + 8 * c.val + 4)).toNat
    · simp [hgood hsize] at h
    · simp [hbad hsize] at h
  have hwindows : failedAt ((List.range 8).flatMap (windowChecks r)) = none ↔ ∀ n < 8, WindowPasses r n := by
    simp only [failedAt_blocks_eq_none_iff, hwindow]
  have hrqs : failedAt ((List.range 17).flatMap (rqChecks r)) = none ↔ ∀ q, RequestRingPasses r q := by
    rw [failedAt_blocks_eq_none_iff]
    exact ⟨fun h q => (hrq q).1 (h q q.isLt), fun h k hk => (hrq ⟨k, hk⟩).2 (h _)⟩
  have hcqs : failedAt ((List.range 4).flatMap (cqChecks r)) = none ↔ ∀ c, CompletionRingPasses r c := by
    rw [failedAt_blocks_eq_none_iff]
    exact ⟨fun h c => (hcq c).1 (h c c.isLt), fun h k hk => (hcq ⟨k, hk⟩).2 (h _)⟩
  rw [setupFailureAt_eq]
  refine ⟨?_, fun n hn hbefore hfails => ?_, fun hw => ⟨fun q hbefore hfails => ?_, fun hq => ⟨fun c hbefore hfails => ?_,
    fun hc hfails => ?_⟩⟩⟩
  · rw [failedAt_append, failedAt_append, failedAt_append, Option.or_eq_none_iff, Option.or_eq_none_iff,
      Option.or_eq_none_iff, hwindows, hrqs, hcqs, failedAt_progress]
    simp [ProgressPasses]
  · exact failedAt_append_of_some (failedAt_blocks_of_first _ hn (fun m hm => (hwindow m).2 (hbefore m hm))
      ((failedAt_windowChecks r n).2 hfails)) _
  · obtain ⟨hbad, hgood⟩ := (failedAt_rqChecks r q).2 hfails
    have hfirst {off} (h : failedAt (rqChecks r q.val) = some off) :=
      failedAt_blocks_of_first (rqChecks r) q.isLt
        (fun m hm => (hrq ⟨m, hm.trans q.isLt⟩).2 (hbefore _ hm)) h
    rw [failedAt_append_of_none (hwindows.2 hw)]
    exact ⟨fun h => failedAt_append_of_some (hfirst (hbad h)) _, fun h => failedAt_append_of_some (hfirst (hgood h)) _⟩
  · obtain ⟨hbad, hgood⟩ := (failedAt_cqChecks r c).2 hfails
    have hfirst {off} (h : failedAt (cqChecks r c.val) = some off) :=
      failedAt_blocks_of_first (cqChecks r) c.isLt
        (fun m hm => (hcq ⟨m, hm.trans c.isLt⟩).2 (hbefore _ hm)) h
    rw [failedAt_append_of_none (hwindows.2 hw), failedAt_append_of_none (hrqs.2 hq)]
    exact ⟨fun h => failedAt_append_of_some (hfirst (hbad h)) _, fun h => failedAt_append_of_some (hfirst (hgood h)) _⟩
  · rw [failedAt_append_of_none (hwindows.2 hw), failedAt_append_of_none (hrqs.2 hq),
      failedAt_append_of_none (hcqs.2 hc), failedAt_progress]
    exact if_neg hfails

end Sys2Proof.Machine
end

section
/-! Completion entries: offers, entry writes, the layout of section 12.5, and moderation (sections 8.2, 8.4, 8.6). -/

namespace Sys2Proof.Machine

/-! ### Offers -/

/-- The place a record came from is given up whether its queue has begun an entry or not. -/
theorem beginEntry_giveUp {s : State} (hrep : s.reporting = true) (c : CqNo) (p : Producer) :
    (s.giveUp p).beginEntry c = (s.beginEntry c).giveUp p := by
  have hrep' : (s.giveUp p).reporting = true := by cases p <;> exact hrep
  have hcq : (s.giveUp p).cq c = s.cq c := by cases p <;> rfl
  rw [beginEntry_eq s c hrep, beginEntry_eq _ c hrep', hcq]
  cases p <;> rfl

/-- Settles O47: the room in the staging list, or the place in the waiting list. -/
theorem offerAdmitsOrWaits : Obligations.OfferAdmitsOrWaits := by
  unfold Obligations.OfferAdmitsOrWaits
  refine ⟨fun s p => by cases p <;> rfl, fun s p r x hr hready hpart hx hp => ?_⟩
  have hrep : s.reporting = true := decide_eq_true hpart
  have hexec : exec (.offer p) s = .next (if x.staging.length < 8 ∧ x.waiting = []
      then ((s.admitRecord r.dest p r).beginEntry r.dest).settleProducer p
      else s.setCq r.dest { x with waiting := x.waiting ++ [p] }) := by
    have hasks : s.reporting = true ∧ ¬ x.waiting.contains p = true := ⟨hrep, by simpa using hp⟩
    show execOffer p s = _
    rw [execOffer, take_of_running hr]
    simp only [hready, ← hx, if_pos hasks]
  rw [hexec]
  split_ifs with hroom
  · intro y hy
    have hstaged : s.admitRecord r.dest p r = (s.setCq r.dest y).giveUp p := by
      rw [State.admitRecord, ← hx, hy]
    have hstaging : y.staging ≠ [] := by simp [hy]
    refine ⟨(s.setCq r.dest y).beginEntry r.dest, _, rfl, ?_⟩
    rw [hstaged, beginEntry_giveUp (show (s.setCq r.dest y).reporting = true from hrep)]
    have hu := beginEntry_eq (s.setCq r.dest y) r.dest hrep
    rw [State.cq_setCq_self, setCq_setCq] at hu
    simp only [ne_eq, hstaging, not_false_eq_true, true_and] at hu
    rw [hu]
    exact ⟨rfl, fun d hd => State.cq_setCq_ne s _ hd, State.cq_setCq_self .., settleProducer_giveUp _ p⟩
  · rfl

/-! ### The layout of an entry -/

/-- A byte of two nibbles. -/
theorem nibbles_toNat (hi lo : BitVec 4) : (nibbles hi lo).toNat = lo.toNat + 16 * hi.toNat := by
  have hlo := lo.isLt
  rw [nibbles, BitVec.toNat_append, ← Nat.shiftLeft_add_eq_or_of_lt hlo, Nat.shiftLeft_eq]
  omega

/-- The error bits of an RX_DONE stand above its line number. -/
theorem rxDoneByte4_toNat (i : LineNo) (e : ErrorSet) : (rxDoneByte4 i e).toNat =
    i.val + (if e.parity then 16 else 0) + (if e.framing then 32 else 0) + (if e.overrun then 64 else 0) := by
  obtain ⟨p, f, o⟩ := e
  revert i p f o
  decide

theorem recHalf_of_bytes {r : List Byte} {n : Nat} (h : Half) (h0 : recByte r n = h.extractLsb' 0 8)
    (h1 : recByte r (n + 1) = h.extractLsb' 8 8) : recHalf r n = h := by
  rw [recHalf, h0, h1, half_extract]

theorem recWord_of_zero {r : List Byte} {n : Nat} (h0 : recByte r n = 0) (h1 : recByte r (n + 1) = 0)
    (h2 : recByte r (n + 2) = 0) (h3 : recByte r (n + 3) = 0) : recWord r n = 0 := by
  rw [recWord, h0, h1, h2, h3]
  decide

/-- The last two bytes of an RX_DONE: the first error's place, or 0xFFFF. -/
theorem optional16_eq (n : Option Nat) : ∃ h : Half, optional16 n = [h.extractLsb' 0 8, h.extractLsb' 8 8] ∧
    h = match n with
      | some k => BitVec.ofNat 16 k
      | none => 0xFFFF := by
  cases n with
  | some k => exact ⟨BitVec.ofNat 16 k, rfl, rfl⟩
  | none => exact ⟨0xFFFF, by decide, rfl⟩

/-- The bytes of a body stand as section 12.5 lays them out. -/
theorem completionLayout_bytes (b : CplBody) : CompletionLayout b b.bytes := by
  cases b with
  | controlDone code line tag st =>
    refine ⟨rfl, rfl, ?_, recHalf_of_bytes tag rfl rfl, ?_, rfl, recHalf_of_bytes 0 rfl rfl⟩
    · cases line <;> rfl
    · cases st <;> rfl
  | txDone i tag sent st =>
    refine ⟨rfl, rfl, ?_, recHalf_of_bytes tag rfl rfl, recHalf_count16 rfl rfl, recHalf_of_bytes 0 rfl rfl⟩
    cases st <;> rfl
  | rxDone i tag count reason e first delim =>
    obtain ⟨h, hbytes, hfirst⟩ := optional16_eq first
    simp only [CompletionLayout, CplBody.bytes, hbytes]
    refine ⟨rfl, rxDoneByte4_toNat i e, ?_, recHalf_of_bytes tag rfl rfl, recHalf_count16 rfl rfl,
      (recHalf_of_bytes h rfl rfl).trans ?_⟩
    · refine (nibbles_toNat _ _).trans ?_
      have hreason : reason.code.toNat = reasonCode reason := by cases reason <;> rfl
      cases delim with
      | none => simp [hreason]
      | some k => simp [hreason]
    · cases first <;> simp only [hfirst]
  | rateFound i k f d =>
    have hparity (p : Parity) : p.code = parityCode p := by cases p <;> rfl
    exact ⟨rfl, rfl, rfl, rfl, rfl, hparity f.parity, rfl, recHalf_count16 rfl rfl⟩
  | rateNotFound i reason n =>
    refine ⟨rfl, rfl, rfl, ?_, rfl, recWord_of_zero rfl rfl rfl rfl⟩
    cases reason <;> rfl
  | breakIdle i => exact ⟨rfl, rfl, rfl, recHalf_of_bytes 0 rfl rfl, recWord_of_zero rfl rfl rfl rfl⟩
  | pauseExpired i => exact ⟨rfl, rfl, rfl, recHalf_of_bytes 0 rfl rfl, recWord_of_zero rfl rfl rfl rfl⟩
  | queueHalted i q slot => exact ⟨rfl, rfl, rfl, rfl, rfl, recHalf_count16 rfl rfl, recHalf_of_bytes 0 rfl rfl⟩

/-! ### The writes of an entry -/

/-- When an entry has been written, an ARMED queue takes the notification of R146. -/
theorem noteWritten_rows (z : CplQueue) : ∃ notif timer, z.noteWritten = { z with notif := notif, timer := timer } ∧
    (z.notif ≠ .armed → notif = z.notif ∧ timer = z.timer) ∧
    (z.notif = .armed →
      if z.threshold ≤ z.unretired then notif = .asserted ∧ timer = none
      else if z.timer ≠ none then notif = .armed ∧ timer = z.timer
      else if z.delay = 0 then notif = .asserted ∧ timer = none
      else notif = .armed ∧ timer = some z.delay) := by
  refine ⟨z.noteWritten.notif, z.noteWritten.timer, noteWritten_eq z, fun h => ?_, fun h => ?_⟩
  · simp [CplQueue.noteWritten, h]
  · simp only [CplQueue.noteWritten, h, if_true, CplQueue.armedCount, Option.isSome_iff_ne_none]
    split_ifs <;> simp [h]

/-- The queue after an entry has been written (R135). -/
theorem entryWritten_eq {y : CplQueue} {e : Staged} {es : List Staged} {n : Nat} (hs : y.staging = e :: es)
    (hn : y.size = some n) : y.entryWritten = { y with
      staging := es, write := .noWrite
      tail := if y.tail + 1 = n then 0 else y.tail + 1
      phase := if y.tail + 1 = n then !y.phase else y.phase } := by
  simp only [CplQueue.entryWritten, nextSlot, hs, hn, Option.getD_some, List.tail_cons]
  by_cases h : y.tail + 1 = n
  · simp [h]
  · simp [h]

/-- The queue's front waiter is admitted into the place that has come free (R140). -/
theorem admitWaiter_of_ready {s : State} {c : CqNo} {p : Producer} {rest : List Producer} {r : Completion}
    (hw : (s.cq c).waiting = p :: rest) (hr : s.readyRecord p = some r) :
    GivesUp p (s.setCq c { s.cq c with
      waiting := rest, staging := (s.cq c).staging ++ [{ producer := p, record := r }] }) (s.admitWaiter c) := by
  have heq : s.admitWaiter c = ((s.setCq c { s.cq c with
      waiting := rest, staging := (s.cq c).staging ++ [{ producer := p, record := r }] }).giveUp p).settleProducer p := by
    simp only [State.admitWaiter, hw, hr, State.admitRecord, State.cq_setCq_self, setCq_setCq]
  rw [heq]
  exact settleProducer_giveUp _ p

/-- Settles O48: the body, the head word, the waiter and the next entry; the layout; the moderation timer. -/
theorem entryWritesAndModeration : Obligations.EntryWritesAndModeration := by
  unfold Obligations.EntryWritesAndModeration
  refine ⟨fun s x bs hr hx => ⟨fun c e es y hy hs => ⟨fun hw hres => ?_, fun hw hres n z hn hz => ?_⟩,
    fun hactive hres => ?_⟩, fun s c x hx => ⟨fun hw => ?_, fun p rest r hw hready => ?_, fun hpart => ?_⟩,
    completionLayout_bytes, fun s c x hr hx => ⟨fun ht => ?_, fun ht => ?_⟩⟩
  · show execBodyAccessEnds c s = _
    rw [execBodyAccessEnds, take_of_running hr]
    have hcq : (s.dropResult (.body c)).cq c = y := hy.symm
    simp only [← hy, hw, hres, hx, State.requestHeadWord, hcq, hs, headBytes_eq, CplQueue.tailAddr]
  · obtain ⟨notif, timer, hnote, hkept, harmed⟩ := noteWritten_rows z
    have hnotif : z.notif = y.notif := by rw [hz]
    have htimer : z.timer = y.timer := by rw [hz]
    have hdelay : z.delay = y.delay := by rw [hz]
    rw [hnotif, htimer] at hkept
    rw [hnotif, htimer, hdelay] at harmed
    refine ⟨notif, timer, ?_, hkept, harmed⟩
    show execHeadWordEnds c s = _
    rw [execHeadWordEnds, take_of_running hr]
    have hcq : (s.dropResult (.headWord c)).cq c = y := hy.symm
    simp only [← hy, hw, hres, hx, State.entryWritten, hcq, entryWritten_eq hs hn, ← hz, hnote]
  · refine ⟨(s.dropResult .progress).progressUnfinished, ?_, ?_⟩
    · show execProgressWriteEnds s = _
      rw [execProgressWriteEnds, take_of_running hr]
      simp only [hactive, hres, hx]
    · have haccess : (s.dropResult .progress).engine.access = s.engine.access := rfl
      simp [State.progressUnfinished, haccess, Option.any_eq_true, Option.isSome_iff_ne_none]
  · rw [hx] at hw
    simp only [State.admitWaiter, hw]
  · subst hx
    exact admitWaiter_of_ready hw hready
  · subst hx
    exact beginEntry_eq s c (decide_eq_true hpart)
  · subst hx
    refine (take_of_running hr _).trans (congrArg _ (if_neg ?_))
    simp [ht]
  · subst hx
    refine (take_of_running hr _).trans (congrArg _ ((if_pos (Option.isSome_iff_ne_none.2 ht)).trans ?_))
    simp only [CplQueue.moderate, Nat.one_le_iff_ne_zero]

end Sys2Proof.Machine
end

section
/-! SUPPORT. What a move can do to one request queue and to one completion queue, said once: the invariants of the rings
are proved over these changes. -/

namespace Sys2Proof.Machine

variable {tbl : Bool} {s t : State}

/-! ### Request queues -/

/-- The queue as given may be fetched, and its consumer as it stands in `t` asks for it. -/
structure FetchAsked (t : State) (q : RqNo) (x : ReqQueue) : Prop where
  fetchable : x.fetchable = true
  rpq : ∀ i, q = Machine.rpq i → (t.line i).asksRpq x = true
  txq : ∀ i, q = Machine.txq i → (t.line i).asksTxq x = true
  ctl : q = 0 → t.control.st = .fetching

/-- What a move from `s` to `t` can leave request queue `q` as. -/
inductive RqChange (s t : State) (q : RqNo) : ReqQueue → Prop
  | asked (b : Bool) : (b = true → FetchAsked t q (s.rq q)) →
      RqChange s t q { s.rq q with fetch := (s.rq q).fetch || b }
  | accepted (b : Bool) : (s.rq q).fetch = true → (s.rq q).isEmpty = false →
      (b = true → FetchAsked t q { s.rq q with head := nextSlot (s.rq q).head (s.rq q).size, fetch := false }) →
      RqChange s t q { s.rq q with head := nextSlot (s.rq q).head (s.rq q).size, fetch := b }
  | tail (n v : Nat) : s.part = .running → (s.rq q).size = some n → v < n → RqChange s t q { s.rq q with tail := v }
  | advanced : (s.rq q).isEmpty = false →
      RqChange s t q { s.rq q with head := nextSlot (s.rq q).head (s.rq q).size }
  | flags (halted fetch : Bool) : (fetch = true → (s.rq q).fetch = true) →
      RqChange s t q { s.rq q with halted := halted, fetch := fetch }
  | fresh : RqChange s t q ReqQueue.reset
  | installed (r : List Byte) : s.part = .loading → setupFailureAt r = none →
      RqChange s t q { s.rq q with
        base := recWord r (0x60 + 8 * q.val), size := some (recHalf r (0x60 + 8 * q.val + 4)).toNat }

theorem RqChange.of_eq {q : RqNo} {x y : ReqQueue} (h : RqChange s t q x) (e : y = x) : RqChange s t q y := e ▸ h

theorem RqChange.same (q : RqNo) : RqChange s t q (s.rq q) :=
  (RqChange.flags (s.rq q).halted (s.rq q).fetch id).of_eq rfl

/-- A consumer asks for its queue only when it may be fetched. -/
theorem fetchable_of_asksRpq {l : Line} {x : ReqQueue} (h : l.asksRpq x = true) : x.fetchable = true := by
  simp only [Line.asksRpq, Bool.and_eq_true] at h
  exact h.2

theorem fetchable_of_asksTxq {l : Line} {x : ReqQueue} (h : l.asksTxq x = true) : x.fetchable = true := by
  simp only [Line.asksTxq, Bool.and_eq_true] at h
  exact h.2

theorem fetchAsked_rpq {i : LineNo} {x : ReqQueue} (h : (t.line i).asksRpq x = true) : FetchAsked t (rpq i) x where
  fetchable := fetchable_of_asksRpq h
  rpq j hj := by
    by_cases hij : i = j
    · exact hij ▸ h
    · exact absurd hj (rpq_ne_rpq hij)
  txq j hj := absurd hj.symm (txq_ne_rpq j i)
  ctl h0 := absurd h0 (rpq_ne_zero i)

theorem fetchAsked_txq {i : LineNo} {x : ReqQueue} (h : (t.line i).asksTxq x = true) : FetchAsked t (txq i) x where
  fetchable := fetchable_of_asksTxq h
  rpq j hj := absurd hj (txq_ne_rpq i j)
  txq j hj := by
    by_cases hij : i = j
    · exact hij ▸ h
    · exact absurd hj (txq_ne_txq hij)
  ctl h0 := absurd h0 (txq_ne_zero i)

theorem fetchAsked_ctl {x : ReqQueue} (h : x.fetchable = true) (hst : t.control.st = .fetching) : FetchAsked t 0 x where
  fetchable := h
  rpq i hi := absurd hi.symm (rpq_ne_zero i)
  txq i hi := absurd hi.symm (txq_ne_zero i)
  ctl _ := hst

/-- Whether line `i`, when it settles, asks for queue `q`. -/
theorem LineTakes.rq {i : LineNo} {l : Line} (h : LineTakes i s t l) (q : RqNo) :
    ∃ b, t.rq q = { s.rq q with fetch := (s.rq q).fetch || b } ∧ (b = true → FetchAsked t q (s.rq q)) := by
  refine ⟨_, (h.2.2.1 q).trans (by rw [Bool.or_assoc]), fun hb => ?_⟩
  simp only [Bool.or_eq_true, Bool.and_eq_true, decide_eq_true_eq] at hb
  rcases hb with ⟨rfl, hb⟩ | ⟨rfl, hb⟩
  · exact fetchAsked_rpq hb
  · exact fetchAsked_txq hb

theorem advanceHead_rq_self (s : State) (q : RqNo) :
    (s.advanceHead q).rq q = { s.rq q with head := nextSlot (s.rq q).head (s.rq q).size } := by
  rw [advanceHead_eq]
  exact State.rq_setRq_self s q _

theorem advanceHead_rq_ne (s : State) {p q : RqNo} (h : q ≠ p) : (s.advanceHead p).rq q = s.rq q := by
  rw [advanceHead_eq]
  exact State.rq_setRq_ne s _ h

/-- A record delivered to line `i` from queue `p`: the fetch has ended, the head has advanced, and the line has asked for
what it wants next. -/
theorem rqChange_delivered {i : LineNo} {l : Line} {p : RqNo} (hf : (s.rq p).fetch = true)
    (he : (s.rq p).isEmpty = false) (h : LineTakes i ((s.endFetch p).advanceHead p) t l) (q : RqNo) :
    RqChange s t q (t.rq q) := by
  obtain ⟨b, hrq, hb⟩ := h.rq q
  by_cases hq : q = p
  · subst hq
    have hbase : ((s.endFetch q).advanceHead q).rq q =
        { s.rq q with head := nextSlot (s.rq q).head (s.rq q).size, fetch := false } := by
      rw [advanceHead_rq_self, State.endFetch, State.rq_setRq_self]
    rw [hbase] at hrq hb
    exact (RqChange.accepted b hf he hb).of_eq (hrq.trans (by rw [Bool.false_or]))
  · have hbase : ((s.endFetch p).advanceHead p).rq q = s.rq q :=
      (advanceHead_rq_ne _ hq).trans (State.rq_setRq_ne s _ hq)
    rw [hbase] at hrq hb
    exact (RqChange.asked b hb).of_eq hrq

/-- A change of one queue leaves the others. -/
theorem rqChange_setRq {p : RqNo} {x : ReqQueue} (ht : t.reqQueues = (s.setRq p x).reqQueues) (h : RqChange s t p x)
    (q : RqNo) : RqChange s t q (t.rq q) := by
  by_cases hq : q = p
  · subst hq
    exact h.of_eq ((State.rq_congr ht q).trans (State.rq_setRq_self s q x))
  · exact (RqChange.same q).of_eq ((State.rq_congr ht q).trans (State.rq_setRq_ne s x hq))

theorem beginAccess_reqQueues (s : State) (r : Request) : (s.beginAccess r).reqQueues = s.reqQueues := by
  unfold State.beginAccess
  split <;> rfl

/-- Every move changes a request queue in one of these ways. -/
theorem Move.rq (m : Move tbl s t) (q : RqNo) : RqChange s t q (t.rq q) := by
  have hsame : t.reqQueues = s.reqQueues → RqChange s t q (t.rq q) := fun e => (RqChange.same q).of_eq (State.rq_congr e q)
  have hfresh : t.reqQueues = Vector.replicate 17 ReqQueue.reset → RqChange s t q (t.rq q) := fun e =>
    RqChange.fresh.of_eq (by simp [State.rq, e])
  have hforget : t.reqQueues = (s.reqQueues.map fun x => { x with fetch := false }) → RqChange s t q (t.rq q) :=
    fun e => (RqChange.flags (s.rq q).halted false (by simp)).of_eq (by simp [State.rq, e])
  cases m
  case registers hc _ => exact hsame hc.reqQueues
  case takes h =>
    obtain ⟨b, hrq, hb⟩ := h.rq q
    exact (RqChange.asked b hb).of_eq hrq
  case dataRead h =>
    obtain ⟨b, hrq, hb⟩ := h.rq q
    exact (RqChange.asked (s := s) b hb).of_eq hrq
  case deliverRx hf he _ h => exact rqChange_delivered hf he h q
  case answerTx hf he _ h => exact rqChange_delivered hf he h q
  case acceptTx hf he _ h => exact rqChange_delivered hf he h q
  case tail p n v hp hn hv => exact rqChange_setRq rfl (.tail n v hp hn hv) q
  case advanceHead p he => exact rqChange_setRq (by rw [advanceHead_eq]) (.advanced he) q
  case queueFlags p halted fetch hf => exact rqChange_setRq rfl (.flags halted fetch hf) q
  case askRpq i =>
    have hline : ∀ j, (s.askRpq i).line j = s.line j := fun j => by rw [askRpq_eq]; rfl
    exact rqChange_setRq (by rw [askRpq_eq]) (.asked _ fun hb => fetchAsked_rpq (by rwa [hline])) q
  case askTxq i =>
    have hline : ∀ j, (s.askTxq i).line j = s.line j := fun j => by rw [askTxq_eq]; rfl
    exact rqChange_setRq (by rw [askTxq_eq]) (.asked _ fun hb => fetchAsked_txq (by rwa [hline])) q
  case askCtl =>
    by_cases hask : s.control.st = .idle ∧ s.control.slot = none ∧ s.part = .running ∧ (s.rq 0).fetchable = true
    · have heq := (askCtl_eq s).trans (if_pos hask)
      refine rqChange_setRq (p := 0) (x := { s.rq 0 with fetch := true }) (by rw [heq])
        ((RqChange.asked true fun _ => fetchAsked_ctl hask.2.2.2 (by rw [heq])).of_eq (by rw [Bool.or_true])) q
    · exact hsame (by rw [(askCtl_eq s).trans (if_neg hask)])
  case grant => exact hsame (beginAccess_reqQueues _ _)
  case readSetup => exact hsame (beginAccess_reqQueues _ _)
  case enterLoading =>
    obtain ⟨m, n, he, _⟩ := enterLoading_eq s
    exact hfresh (by rw [he])
  case failLoading => exact hfresh rfl
  case install r hp hn => exact (RqChange.installed r hp hn).of_eq (install_rq s r q)
  case enterFaulted => exact hforget rfl
  case expireStopLimit => exact hforget rfl
  all_goals exact hsame rfl

/-! ### Completion queues -/

/-- What a move from `s` can leave completion queue `c` as. -/
inductive CqChange (s : State) (c : CqNo) : CplQueue → Prop
  | timer (n : Option Nat) : CqChange s c { s.cq c with timer := n }
  | retire (head : Nat) (f : CplQueue → CplQueue) : s.part = .running ∨ s.part = .stopping →
      head < (s.cq c).size.getD 0 → ringDist head (s.cq c).head ((s.cq c).size.getD 0) ≤ (s.cq c).unretired →
      f = id ∨ f = CplQueue.arm → CqChange s c (f { s.cq c with head := head })
  | write (w : EntryWrite) : s.reporting = true ∨ (s.cq c).write ≠ .noWrite → CqChange s c { s.cq c with write := w }
  | stage (e : Staged) : (s.cq c).staging.length < 8 → CqChange s c { s.cq c with staging := (s.cq c).staging ++ [e] }
  | wait (p : Producer) : p ∉ (s.cq c).waiting → CqChange s c { s.cq c with waiting := (s.cq c).waiting ++ [p] }
  | written (waiting : List Producer) (more : List Staged) : (s.cq c).write = .headWord →
      waiting <:+ (s.cq c).waiting → more.length ≤ 1 → CqChange s c ((s.cq c).writtenWith waiting more)
  | moderate : CqChange s c (s.cq c).moderate
  | fresh : CqChange s c CplQueue.reset
  | installed (r : List Byte) : s.part = .loading → setupFailureAt r = none →
      CqChange s c { s.cq c with
        base := recWord r (0xE8 + 8 * c.val), size := some (recHalf r (0xE8 + 8 * c.val + 4)).toNat
        delay := (recHalf r (0xE8 + 8 * c.val + 6)).toNat, threshold := (recByte r (0x108 + c.val)).toNat }
  | discard (n : Option Nat) : CqChange s c { (s.cq c).discard with timer := n }

theorem CqChange.of_eq {c : CqNo} {x y : CplQueue} (h : CqChange s c x) (e : y = x) : CqChange s c y := e ▸ h

theorem CqChange.same (c : CqNo) : CqChange s c (s.cq c) := (CqChange.timer (s.cq c).timer).of_eq rfl

theorem cqChange_setCq {d : CqNo} {x : CplQueue} (h : CqChange s d x) (c : CqNo) :
    CqChange s c ((s.setCq d x).cq c) := by
  by_cases hc : c = d
  · subst hc
    exact h.of_eq (State.cq_setCq_self s c x)
  · exact (CqChange.same c).of_eq (State.cq_setCq_ne s x hc)

theorem beginAccess_cplQueues (s : State) (r : Request) : (s.beginAccess r).cplQueues = s.cplQueues := by
  unfold State.beginAccess
  split <;> rfl

/-- Every move changes a completion queue in one of these ways. -/
theorem Move.cq (m : Move tbl s t) (c : CqNo) : CqChange s c (t.cq c) := by
  have hsame : t.cplQueues = s.cplQueues → CqChange s c (t.cq c) := fun e => (CqChange.same c).of_eq (State.cq_congr e c)
  have hfresh : t.cplQueues = Vector.replicate 4 CplQueue.reset → CqChange s c (t.cq c) := fun e =>
    CqChange.fresh.of_eq (by simp [State.cq, e])
  cases m
  case registers hc _ => exact hsame hc.cplQueues
  case takes h => exact hsame (by rw [h.frame])
  case dataRead h => exact hsame (by rw [h.frame]; rfl)
  case deliverRx h | answerTx h | acceptTx h => exact hsame (by rw [h.frame, advanceHead_eq]; rfl)
  case tick => exact (CqChange.timer (tickTimer (s.cq c).timer)).of_eq (by simp [State.cq])
  case advanceHead => exact hsame (by rw [advanceHead_eq])
  case askRpq => exact hsame (by rw [askRpq_eq]; rfl)
  case askTxq => exact hsame (by rw [askTxq_eq]; rfl)
  case askCtl => exact hsame (by rw [askCtl_eq]; split <;> rfl)
  case grant => exact hsame (beginAccess_cplQueues _ _)
  case readSetup => exact hsame (beginAccess_cplQueues _ _)
  case retireHead d b head f hd hpass hf =>
    obtain ⟨hpart, e, he, hlt, hdist⟩ := (retirePasses_iff s b head).1 hpass
    obtain rfl : d = e := hd.trans (Fin.ext (by simp [Fin.ofNat, he]))
    exact cqChange_setCq (.retire head.toNat f hpart hlt hdist hf) c
  case entryWrite d w hw => exact cqChange_setCq (.write w hw) c
  case stage d e he => exact cqChange_setCq (.stage e he) c
  case wait d p hp => exact cqChange_setCq (.wait p hp) c
  case written d ws more hw hs hm => exact cqChange_setCq (.written ws more hw hs hm) c
  case moderate d => exact cqChange_setCq .moderate c
  case enterLoading =>
    obtain ⟨m, n, he, _⟩ := enterLoading_eq s
    exact hfresh (by rw [he])
  case failLoading => exact hfresh rfl
  case install r hp hn => exact (CqChange.installed r hp hn).of_eq (install_cq s r c)
  case enterFaulted => exact (CqChange.discard none).of_eq (by simp [State.cq, State.enterFaulted, State.forgetFetches])
  case expireStopLimit =>
    exact (CqChange.discard (s.cq c).timer).of_eq (by simp [State.cq, State.expireStopLimit, CplQueue.discard])
  case enterStopped => exact (CqChange.timer none).of_eq (by simp [State.cq, State.enterStopped])
  all_goals exact hsame rfl

/-! ### The part state -/

/-- LOADING goes on, or is entered with fresh queues. -/
theorem Move.part_loading (m : Move tbl s t) (h : t.part = .loading) : s.part = .loading ∨
    ((∀ q, t.rq q = ReqQueue.reset) ∧ ∀ c, t.cq c = CplQueue.reset) := by
  have hsame : t.part = s.part → s.part = .loading ∨
      ((∀ q, t.rq q = ReqQueue.reset) ∧ ∀ c, t.cq c = CplQueue.reset) := fun e => .inl (e ▸ h)
  cases m
  case registers hc _ => exact hsame hc.part
  case part p hp => exact absurd h hp
  case takes ht => exact hsame (by rw [ht.frame])
  case dataRead ht => exact hsame (by rw [ht.frame]; rfl)
  case deliverRx ht | answerTx ht | acceptTx ht => exact hsame (by rw [ht.frame, advanceHead_eq]; rfl)
  case stopLines => exact absurd h (by simp)
  case advanceHead => exact hsame (by rw [advanceHead_eq])
  case askRpq => exact hsame (by rw [askRpq_eq]; rfl)
  case askTxq => exact hsame (by rw [askTxq_eq]; rfl)
  case askCtl => exact hsame (by rw [askCtl_eq]; split <;> rfl)
  case grant => exact hsame (by unfold State.beginAccess; split <;> rfl)
  case readSetup => exact hsame (by unfold State.beginAccess; split <;> rfl)
  case enterLoading =>
    obtain ⟨m, n, he, _⟩ := enterLoading_eq s
    exact .inr ⟨fun q => by simp [State.rq, he], fun c => by simp [State.cq, he]⟩
  case failLoading => exact absurd h (by simp [State.failLoading])
  case enterFaulted => exact absurd h (by simp [State.enterFaulted])
  case enterStopped => exact absurd h (by simp [State.enterStopped])
  all_goals exact hsame rfl

end Sys2Proof.Machine
end

section
/-! PROOF. The indices of the rings stay inside them, and an ARMED queue stays below its threshold (R134, R142 to R146,
R155, R156, R159). -/

namespace Sys2Proof.Machine

variable {tbl : Bool} {s t : State}

/-! ### Distances in a ring -/

/-- The distance from one slot of a ring to another. -/
theorem ringDist_eq {a b n : Nat} (ha : a < n) (hb : b < n) : ringDist a b n = if b ≤ a then a - b else a + n - b := by
  unfold ringDist
  split_ifs with h
  · rw [show a + n - b = (a - b) + n by omega, Nat.add_mod_right, Nat.mod_eq_of_lt (by omega)]
  · rw [Nat.mod_eq_of_lt (by omega)]

/-- A head that moves on towards the tail leaves no more between them. -/
theorem ringDist_le_of_head {tail head new n : Nat} (htail : tail < n) (hhead : head < n) (hnew : new < n)
    (h : ringDist new head n ≤ ringDist tail head n) : ringDist tail new n ≤ ringDist tail head n := by
  rw [ringDist_eq hnew hhead, ringDist_eq htail hhead] at h
  rw [ringDist_eq htail hnew, ringDist_eq htail hhead]
  split_ifs at h ⊢ <;> omega

theorem nextSlot_lt {k n : Nat} (h : k < n) : nextSlot k (some n) < n := by
  simp only [nextSlot, Option.getD_some]
  split_ifs <;> omega

/-- A ring of a valid Setup Record has at least 4 slots. -/
theorem RingSize.pos {n : Nat} (h : RingSize n) : 0 < n := by
  obtain ⟨k, _, _, rfl⟩ := h
  exact Nat.pos_of_ne_zero (by positivity)

theorem setup_rqSize_pos {r : List Byte} (h : setupFailureAt r = none) (q : RqNo) :
    0 < (recHalf r (0x60 + 8 * q.val + 4)).toNat := by
  obtain ⟨hsize, _⟩ := ((setupRecordValidity r).1.1 h).2.1 q
  exact hsize.pos

theorem setup_cqSize_pos {r : List Byte} (h : setupFailureAt r = none) (c : CqNo) :
    0 < (recHalf r (0xE8 + 8 * c.val + 4)).toNat := by
  obtain ⟨hsize, _⟩ := ((setupRecordValidity r).1.1 h).2.2.1 c
  exact hsize.pos

/-! ### Request rings -/

/-- The head and the tail of a request queue lie in its ring. -/
def ReqQueue.inRange (x : ReqQueue) : Prop := ∀ n, x.size = some n → x.head < n ∧ x.tail < n

/-- A request queue is at rest: its head and tail at 0, and no fetch of it in flight. -/
def ReqQueue.atRest (x : ReqQueue) : Prop := x.head = 0 ∧ x.tail = 0 ∧ x.fetch = false

theorem ReqQueue.atRest.isEmpty {x : ReqQueue} (h : x.atRest) : x.isEmpty = true := by
  obtain ⟨hhead, htail, _⟩ := h
  simp [ReqQueue.isEmpty, hhead, htail]

/-- A queue at rest is empty, so that nobody may fetch it. -/
theorem ReqQueue.atRest.not_fetchable {x : ReqQueue} (h : x.atRest) : x.fetchable = false := by
  simp [ReqQueue.fetchable, h.isEmpty]

/-- The head's advance keeps the indices of a queue in its ring. -/
theorem nextSlot_inRange {x : ReqQueue} (h : x.inRange) (fetch : Bool) :
    ReqQueue.inRange { x with head := nextSlot x.head x.size, fetch := fetch } := by
  intro n hn
  have hsize : x.size = some n := hn
  obtain ⟨hhead, htail⟩ := h n hsize
  exact ⟨by rw [hsize]; exact nextSlot_lt hhead, htail⟩

/-- Each change of a request queue keeps its indices in its ring. -/
theorem inRange_change {q : RqNo} {x : ReqQueue} (m : RqChange s t q x) (h : (s.rq q).inRange)
    (hrest : (s.rq q).size = none ∨ s.part = .loading → (s.rq q).atRest) : x.inRange := by
  cases m with
  | asked b _ => exact h
  | accepted b _ _ _ => exact nextSlot_inRange h b
  | tail k v _ hk hv => exact fun n hn => ⟨(h n hn).1, by rw [Option.some.inj (hn.symm.trans hk)]; exact hv⟩
  | advanced _ => exact nextSlot_inRange h (s.rq q).fetch
  | flags _ _ _ => exact h
  | fresh => exact fun n hn => by simp [ReqQueue.reset] at hn
  | installed r hp hr =>
    intro n hn
    obtain ⟨hhead, htail, _⟩ := hrest (.inr hp)
    obtain rfl := Option.some.inj hn
    have hpos := setup_rqSize_pos hr q
    exact ⟨hhead ▸ hpos, htail ▸ hpos⟩

/-- A queue without a size, or of a part in LOADING, stays at rest. -/
theorem atRest_change {q : RqNo} {x : ReqQueue} (m : RqChange s t q x)
    (hrest : (s.rq q).size = none ∨ s.part = .loading → (s.rq q).atRest) (hx : x.size = none ∨ s.part = .loading) :
    x.atRest := by
  cases m with
  | asked b hb =>
    have hr := hrest hx
    have hb' : b = false := by
      by_contra hne
      have := (hb (by simpa using hne)).fetchable
      rw [hr.not_fetchable] at this
      cases this
    obtain ⟨hhead, htail, hfetch⟩ := hr
    exact ⟨hhead, htail, by rw [hfetch, hb']; rfl⟩
  | accepted b _ he _ => exact absurd ((hrest hx).isEmpty) (by simp [he])
  | tail k v hp hk _ =>
    rcases hx with hx | hx
    · rw [show (s.rq q).size = none from hx] at hk; cases hk
    · rw [hp] at hx; cases hx
  | advanced he => exact absurd ((hrest hx).isEmpty) (by simp [he])
  | flags halted fetch hf =>
    obtain ⟨hhead, htail, hfetch⟩ := hrest hx
    refine ⟨hhead, htail, ?_⟩
    by_contra hne
    have := hf (by simpa using hne)
    rw [hfetch] at this
    cases this
  | fresh => exact ⟨rfl, rfl, rfl⟩
  | installed r hp _ => exact hrest (.inr hp)

/-- Every move keeps the request rings' indices inside them. -/
theorem move_requestRingsInRange (m : Move tbl s t) (h : RequestRingsInRange s) : RequestRingsInRange t := by
  intro q
  refine ⟨inRange_change (m.rq q) (h q).1 (h q).2, fun hx => ?_⟩
  rcases hx with hx | hx
  · exact atRest_change (m.rq q) (h q).2 (.inl hx)
  · rcases m.part_loading hx with hp | ⟨hfresh, _⟩
    · exact atRest_change (m.rq q) (h q).2 (.inr hp)
    · rw [hfresh q]
      exact ⟨rfl, rfl, rfl⟩

/-! ### Completion rings -/

/-- The head and the tail of a completion queue lie in its ring. -/
def CplQueue.inRange (x : CplQueue) : Prop := ∀ n, x.size = some n → x.head < n ∧ x.tail < n

/-- A completion queue is at rest: its head and tail at 0, and no entry of it being written. -/
def CplQueue.atRest (x : CplQueue) : Prop := x.head = 0 ∧ x.tail = 0 ∧ x.write = .noWrite

/-- A queue that is ARMED has fewer entries unretired than its threshold. -/
def CplQueue.armedBelow (x : CplQueue) : Prop := x.notif = .armed → x.unretired < x.threshold

theorem arm_index (x : CplQueue) : x.arm.size = x.size ∧ x.arm.head = x.head ∧ x.arm.tail = x.tail := by
  rw [arm_eq]
  split_ifs <;> exact ⟨rfl, rfl, rfl⟩

theorem writtenWith_index (x : CplQueue) (ws : List Producer) (more : List Staged) :
    (x.writtenWith ws more).size = x.size ∧ (x.writtenWith ws more).head = x.head ∧
      (x.writtenWith ws more).tail = nextSlot x.tail x.size := by
  rw [CplQueue.writtenWith, noteWritten_eq]
  exact ⟨rfl, rfl, rfl⟩

/-- Each change of a completion queue keeps its indices in its ring. -/
theorem cqInRange_change {c : CqNo} {x : CplQueue} (m : CqChange s c x) (h : (s.cq c).inRange)
    (hrest : s.part = .loading → (s.cq c).atRest) : x.inRange := by
  cases m with
  | retire head f _ hlt _ hf =>
    have hin : ({ s.cq c with head := head } : CplQueue).inRange := fun n hn =>
      ⟨by rw [show (s.cq c).size = some n from hn] at hlt; exact hlt, (h n hn).2⟩
    rcases hf with rfl | rfl
    · exact hin
    · obtain ⟨hsize, hhead, htail⟩ := arm_index { s.cq c with head := head }
      intro n hn
      rw [hhead, htail]
      exact hin n (hsize.symm.trans hn)
  | written ws more _ _ _ =>
    obtain ⟨hsize, hhead, htail⟩ := writtenWith_index (s.cq c) ws more
    intro n hn
    have hn' := hsize.symm.trans hn
    rw [hhead, htail, hn']
    exact ⟨(h n hn').1, nextSlot_lt (h n hn').2⟩
  | fresh => exact fun n hn => by simp [CplQueue.reset] at hn
  | installed r hp hr =>
    intro n hn
    obtain ⟨hhead, htail, _⟩ := hrest hp
    obtain rfl := Option.some.inj hn
    have hpos := setup_cqSize_pos hr c
    exact ⟨hhead ▸ hpos, htail ▸ hpos⟩
  | timer _ => exact h
  | write _ _ => exact h
  | stage _ _ => exact h
  | wait _ _ => exact h
  | moderate => exact h
  | discard _ => exact h

/-- In LOADING a completion queue stays at rest. -/
theorem cqAtRest_change {c : CqNo} {x : CplQueue} (m : CqChange s c x) (hp : s.part = .loading)
    (h : (s.cq c).atRest) : x.atRest := by
  obtain ⟨hhead, htail, hwrite⟩ := h
  cases m with
  | retire head f hpart _ _ _ => rcases hpart with h | h <;> rw [hp] at h <;> cases h
  | write w hw =>
    rcases hw with hw | hw
    · simp [State.reporting, hp] at hw
    · exact absurd hwrite hw
  | written ws more hw _ _ => rw [hwrite] at hw; cases hw
  | fresh => exact ⟨rfl, rfl, rfl⟩
  | installed r _ _ => exact ⟨hhead, htail, hwrite⟩
  | timer _ => exact ⟨hhead, htail, hwrite⟩
  | stage _ _ => exact ⟨hhead, htail, hwrite⟩
  | wait _ _ => exact ⟨hhead, htail, hwrite⟩
  | moderate => exact ⟨hhead, htail, hwrite⟩
  | discard _ => exact ⟨hhead, htail, rfl⟩

/-- Every move keeps the completion rings' indices inside them. -/
theorem move_completionRingsInRange (m : Move tbl s t) (h : CompletionRingsInRange s) : CompletionRingsInRange t := by
  intro c
  refine ⟨cqInRange_change (m.cq c) (h c).1 (h c).2, fun hx => ?_⟩
  rcases m.part_loading hx with hp | ⟨_, hfresh⟩
  · exact cqAtRest_change (m.cq c) hp ((h c).2 hp)
  · rw [hfresh c]
    exact ⟨rfl, rfl, rfl⟩

/-! ### ARMED queues -/

/-- A queue armed by a RETIRE stays below its threshold (R144). -/
theorem arm_armedBelow (x : CplQueue) : x.arm.armedBelow := by
  rw [arm_eq]
  split_ifs with hthr h0 hdelay
  · exact fun h => by cases h
  · exact fun _ => Nat.lt_of_not_le hthr
  · exact fun h => by cases h
  · exact fun _ => Nat.lt_of_not_le hthr

/-- A queue that is still ARMED when an entry has been written is below its threshold (R146). -/
theorem noteWritten_armedBelow (x : CplQueue) : x.noteWritten.armedBelow := by
  obtain ⟨notif, timer, heq, hkept, harmed⟩ := noteWritten_rows x
  rw [heq]
  intro hn
  by_cases hx : x.notif = .armed
  · have hrows := harmed hx
    split_ifs at hrows with hthr htimer hdelay
    · exact absurd (hrows.1.symm.trans hn) (by simp)
    · exact Nat.lt_of_not_le hthr
    · exact absurd (hrows.1.symm.trans hn) (by simp)
    · exact Nat.lt_of_not_le hthr
  · exact absurd ((hkept hx).1.symm.trans hn) hx

/-- Each change of a completion queue keeps it below its threshold while it is ARMED. -/
theorem armedBelow_change {c : CqNo} {x : CplQueue} (m : CqChange s c x) (hin : (s.cq c).inRange)
    (hdis : s.part = .loading → (s.cq c).notif = .disarmed) (h : (s.cq c).armedBelow) : x.armedBelow := by
  cases m with
  | retire head f _ hlt hdist hf =>
    rcases hf with rfl | rfl
    · intro harmed
      obtain ⟨n, hn⟩ : ∃ n, (s.cq c).size = some n := by
        cases hsize : (s.cq c).size with
        | none => simp [hsize] at hlt
        | some n => exact ⟨n, rfl⟩
      obtain ⟨hhead, htail⟩ := hin n hn
      rw [hn, Option.getD_some] at hlt hdist
      have hdist' : ringDist head (s.cq c).head n ≤ ringDist (s.cq c).tail (s.cq c).head n := by
        simpa [CplQueue.unretired, hn] using hdist
      have hle := ringDist_le_of_head htail hhead hlt hdist'
      have hold : ringDist (s.cq c).tail (s.cq c).head n < (s.cq c).threshold := by
        simpa [CplQueue.unretired, hn] using h harmed
      have hnew : ringDist (s.cq c).tail head n < (s.cq c).threshold := hle.trans_lt hold
      simpa [CplQueue.unretired, hn] using hnew
    · exact arm_armedBelow _
  | written ws more _ _ _ => exact noteWritten_armedBelow _
  | moderate =>
    intro hn
    have harmed : (s.cq c).notif = .armed := by
      by_contra hne
      simp [CplQueue.moderate, hne] at hn
    exact h harmed
  | fresh => exact fun hn => by cases hn
  | installed r hp _ => exact fun hn => absurd ((hdis hp).symm.trans hn) (by simp)
  | timer _ => exact h
  | write _ _ => exact h
  | stage _ _ => exact h
  | wait _ _ => exact h
  | discard _ => exact h

/-- In LOADING a completion queue stays DISARMED. -/
theorem disarmed_change {c : CqNo} {x : CplQueue} (m : CqChange s c x) (hp : s.part = .loading)
    (hrest : (s.cq c).atRest) (h : (s.cq c).notif = .disarmed) : x.notif = .disarmed := by
  cases m with
  | retire head f hpart _ _ _ => rcases hpart with h | h <;> rw [hp] at h <;> cases h
  | written ws more hw _ _ => rw [hrest.2.2] at hw; cases hw
  | moderate => simp [CplQueue.moderate, h]
  | fresh => rfl
  | installed r _ _ => exact h
  | timer _ => exact h
  | write _ _ => exact h
  | stage _ _ => exact h
  | wait _ _ => exact h
  | discard _ => exact h

/-- Every move keeps ARMED queues below their thresholds, with the rings' indices inside them. -/
theorem move_armedBelowThreshold (m : Move tbl s t) (hr : CompletionRingsInRange s) (h : ArmedBelowThreshold s) :
    ArmedBelowThreshold t := by
  intro c
  refine ⟨armedBelow_change (m.cq c) (hr c).1 (h c).2 (h c).1, fun hx => ?_⟩
  rcases m.part_loading hx with hp | ⟨_, hfresh⟩
  · exact disarmed_change (m.cq c) hp ((hr c).2 hp) ((h c).2 hp)
  · rw [hfresh c]
    rfl

/-! ### The statement -/

theorem ResetValues.rq (h : ResetValues s t) (q : RqNo) : t.rq q = ReqQueue.reset := by
  rw [h.1]
  exact reset_rq q

theorem ResetValues.cq (h : ResetValues s t) (c : CqNo) : t.cq c = CplQueue.reset := by
  rw [h.1]
  exact reset_cq c

theorem completionRings_core {s t : State} (hc : SameCore s t) (h : CompletionRingsInRange s) :
    CompletionRingsInRange t := fun c => by
  rw [State.cq_congr hc.cplQueues, hc.part]
  exact h c

theorem completionRings_reset {s t : State} (hr : ResetValues s t) : CompletionRingsInRange t := fun c => by
  rw [hr.cq]
  exact ⟨fun n hn => by simp [CplQueue.reset] at hn, fun _ => ⟨rfl, rfl, rfl⟩⟩

/-- Settles O59: each change of a queue keeps its indices in its ring, and ARMED queues below their thresholds. -/
theorem stepKeepsTheRings : Obligations.StepKeepsTheRings := by
  refine ⟨keptByEveryStep_of_moves (fun s t hc h q => ?_) (fun s t hr _ q => ?_) fun _ _ => move_requestRingsInRange,
    keptByEveryStep_of_moves (fun _ _ => completionRings_core) (fun _ _ hr _ => completionRings_reset hr)
      fun _ _ => move_completionRingsInRange, fun s t hs ha hstep => ?_⟩
  · rw [State.rq_congr hc.reqQueues, hc.part]
    exact h q
  · rw [hr.rq]
    exact ⟨fun n hn => by simp [ReqQueue.reset] at hn, fun _ => ⟨rfl, rfl, rfl⟩⟩
  · have hboth : KeptByEveryStep fun u => CompletionRingsInRange u ∧ ArmedBelowThreshold u := by
      refine keptByEveryStep_of_moves (fun s t hc h => ⟨completionRings_core hc h.1, fun c => ?_⟩)
        (fun s t hr _ => ⟨completionRings_reset hr, fun c => ?_⟩)
        fun s t m h => ⟨move_completionRingsInRange m h.1, move_armedBelowThreshold m h.1 h.2⟩
      · rw [State.cq_congr hc.cplQueues, hc.part]
        exact h.2 c
      · rw [hr.cq]
        exact ⟨fun hn => (by cases hn), fun _ => rfl⟩
    exact (hboth s t ⟨hs, ha⟩ hstep).2

end Sys2Proof.Machine
end

section
/-! PROOF. The capacities of the collections (R1, R13, R27, R54, R55, R65, R134, R136, R139, R167). -/

namespace Sys2Proof.Machine

variable {tbl : Bool} {s t : State} {i : LineNo} {l k : Line}

/-! ### The writer leaves the FIFO and the delimiters and lengthens no buffer list -/

/-- The FIFO and the delimiter table stand, and the buffer list is no longer than before. -/
structure WriterKeeps (a b : RxSide) : Prop where
  fifo : b.fifo = a.fifo
  delims : b.delims = a.delims
  bufs : b.bufs.length ≤ a.bufs.length

theorem WriterKeeps.refl (a : RxSide) : WriterKeeps a a := ⟨rfl, rfl, le_rfl⟩

theorem WriterKeeps.trans {a b c : RxSide} (h : WriterKeeps a b) (h' : WriterKeeps b c) : WriterKeeps a c :=
  ⟨h'.fifo.trans h.fifo, h'.delims.trans h.delims, h'.bufs.trans h.bufs⟩

theorem store_writerKeeps (l : Line) (bs : List Byte) : WriterKeeps l.rx (l.store bs).rx := by
  unfold Line.store
  split
  next b rest hb =>
    split
    · split
      · exact .refl _
      · exact ⟨rfl, rfl, by simp [hb]⟩
    · exact .refl _
  · exact .refl _

theorem releaseHold_writerKeeps (l : Line) : WriterKeeps l.rx l.releaseHold.rx :=
  (store_writerKeeps l l.rx.hold).trans ⟨rfl, rfl, le_rfl⟩

theorem addErrors_writerKeeps (l : Line) (e : ErrorSet) (n : Nat) : WriterKeeps l.rx (l.addErrors e n).rx := by
  unfold Line.addErrors
  split
  next b rest hb =>
    split
    · exact ⟨rfl, rfl, by simp [hb]⟩
    · exact .refl _
  · exact .refl _

theorem startBuffer_writerKeeps (l : Line) : WriterKeeps l.rx l.startBuffer.rx := by
  unfold Line.startBuffer
  split
  next b rest hb =>
    split
    · exact ⟨rfl, rfl, by simp [hb]⟩
    · exact .refl _
  · exact .refl _

theorem closeBuffer_writerKeeps (l : Line) (i : LineNo) (time : Word) (reason : RxReason) (d : Option Nat) :
    WriterKeeps l.rx (l.closeBuffer i time reason d).rx := by
  unfold Line.closeBuffer
  split
  next b rest hb =>
    split
    · exact ⟨rfl, rfl, by simp [hb]⟩
    · exact .refl _
  · exact .refl _

theorem answerFront_writerKeeps (l : Line) (i : LineNo) (time : Word) (reason : RxReason) :
    WriterKeeps l.rx (l.answerFront i time reason).rx := by
  unfold Line.answerFront
  split
  next b rest hb => exact ⟨rfl, rfl, by simp [hb]⟩
  · exact .refl _

theorem noteLoss_writerKeeps (l : Line) (loss : Bool) : WriterKeeps l.rx (l.noteLoss loss).rx := by
  unfold Line.noteLoss
  split
  · exact (releaseHold_writerKeeps l).trans (addErrors_writerKeeps _ _ _)
  · exact .refl _

theorem hold_writerKeeps (a : RxSide) (h : List Byte) : WriterKeeps a { a with hold := h } := ⟨rfl, rfl, le_rfl⟩

theorem matchChar_writerKeeps (l : Line) (i : LineNo) (time : Word) (c : Byte) :
    WriterKeeps l.rx (l.matchChar i time c).rx := by
  have hstore : ∀ bs g, WriterKeeps l.rx { (l.store bs).rx with hold := g } := fun bs g =>
    (store_writerKeeps l bs).trans (hold_writerKeeps _ g)
  unfold Line.matchChar
  dsimp only
  split
  · split
    · exact (hstore _ []).trans ((store_writerKeeps { l.store _ with rx := { (l.store _).rx with hold := [] } } _).trans
        (closeBuffer_writerKeeps _ _ _ _ _))
    · exact (hstore _ []).trans
        (closeBuffer_writerKeeps { l.store _ with rx := { (l.store _).rx with hold := [] } } _ _ _ _)
    · exact hstore _ []
  · split
    · exact (hstore _ _).trans ((releaseHold_writerKeeps { l.store _ with rx := { (l.store _).rx with hold := _ } }).trans
        (closeBuffer_writerKeeps _ _ _ _ _))
    · exact hstore _ _

theorem storeErrored_writerKeeps (l : Line) (i : LineNo) (time : Word) (v : Byte) (pe fe : Bool) :
    WriterKeeps l.rx (l.storeErrored i time v pe fe).rx := by
  have h := (releaseHold_writerKeeps l).trans ((store_writerKeeps _ [v]).trans
    (addErrors_writerKeeps _ { parity := pe, framing := fe, overrun := false } l.releaseHold.stored))
  unfold Line.storeErrored
  dsimp only
  repeat' split
  · exact h.trans (closeBuffer_writerKeeps _ _ _ _ _)
  · exact h.trans (closeBuffer_writerKeeps _ _ _ _ _)
  · exact h

theorem takeChar_writerKeeps (l : Line) (i : LineNo) (time : Word) (v : Byte) (pe fe loss : Bool) :
    WriterKeeps l.rx (l.takeChar i time v pe fe loss).rx := by
  have h := (startBuffer_writerKeeps l).trans (noteLoss_writerKeeps l.startBuffer loss)
  unfold Line.takeChar
  dsimp only
  split
  · exact h.trans (storeErrored_writerKeeps _ _ _ _ _ _)
  · exact h.trans (matchChar_writerKeeps _ _ _ _)

theorem carryLoss_writerKeeps (l : Line) (loss : Bool) : WriterKeeps l.rx (l.carryLoss loss).rx := by
  rw [carryLoss_eq]
  exact ⟨rfl, rfl, le_rfl⟩

theorem takeMarker_writerKeeps (l : Line) (gap : Bool) (i : LineNo) (time : Word) (loss : Bool) :
    WriterKeeps l.rx (l.takeMarker gap i time loss).rx := by
  have hclose : ∀ reason, WriterKeeps l.rx ((l.releaseHold.noteLoss loss).closeBuffer i time reason none).rx := fun _ =>
    (releaseHold_writerKeeps l).trans ((noteLoss_writerKeeps _ _).trans (closeBuffer_writerKeeps _ _ _ _ _))
  unfold Line.takeMarker Line.takeGap Line.takeBreak
  dsimp only
  repeat' split
  · exact hclose _
  · exact carryLoss_writerKeeps l loss
  · exact hclose _
  · have h := carryLoss_writerKeeps (l.appendEvent (l.event time (.breakIdle i))) loss
    rwa [(appendEvent_keeps l _).2.1] at h

theorem answerBuffer_writerKeeps (l : Line) (i : LineNo) (time : Word) : WriterKeeps l.rx (l.answerBuffer i time).rx := by
  unfold Line.answerBuffer
  repeat' split
  · exact (releaseHold_writerKeeps l).trans (closeBuffer_writerKeeps _ _ _ _ _)
  · exact answerFront_writerKeeps _ _ _ _
  · exact answerFront_writerKeeps _ _ _ _
  · exact .refl _

theorem takeChunk_writerKeeps (l : Line) (i : LineNo) (time : Word) (n : Nat) (ok : Bool) :
    WriterKeeps l.rx (l.takeChunk i time n ok).rx := by
  unfold Line.takeChunk
  dsimp only
  split
  · exact ⟨rfl, rfl, le_rfl⟩
  · split
    · exact ⟨rfl, rfl, le_rfl⟩
    · split
      next b rest hb =>
        split
        · exact ⟨rfl, rfl, by simp [hb]⟩
        · exact ⟨rfl, rfl, le_rfl⟩
      · exact ⟨rfl, rfl, le_rfl⟩

/-! ### The lists of the receive side -/

/-- The FIFO, the buffer list and the delimiter table keep within their places. -/
def RxSide.within (a : RxSide) : Prop := a.fifo.length ≤ 32 ∧ a.bufs.length ≤ 4 ∧ a.delims.length ≤ 4

theorem BufferShrinks.bufs_length {a b : RxSide} (h : BufferShrinks a b) : b.bufs.length ≤ a.bufs.length := by
  rcases h.bufs with e | e <;> simp [e]

theorem RxSide.within.shrinks {a b : RxSide} (h : a.within) (hb : BufferShrinks a b) : b.within := by
  refine ⟨hb.fifo h.1, hb.bufs_length.trans h.2.1, ?_⟩
  rcases hb.delims with e | ⟨e, _⟩
  · rw [e]; exact h.2.2
  · simp [e]

theorem RxSide.within.keeps {a b : RxSide} (h : a.within) (hb : WriterKeeps a b) : b.within :=
  ⟨hb.fifo ▸ h.1, hb.bufs.trans h.2.1, hb.delims ▸ h.2.2⟩

theorem rediscover_within (l : Line) (i : LineNo) (time : Word) (h : l.rx.within) :
    (l.rediscover i time).rx.within ∧ (l.rediscover i time).rx.bufs.length ≤ l.rx.bufs.length := by
  have hdrop : BufferShrinks l.rx { l.discardFifo.rx with hold := [] } :=
    ⟨.inl rfl, .inr rfl, .inl rfl, rfl, rfl, .inl rfl, fun _ => Nat.zero_le _⟩
  have hclose := closeBuffer_writerKeeps { l.discardFifo with rx := { l.discardFifo.rx with hold := [] } } i time
    .rateChange none
  have hin := (h.shrinks hdrop).keeps hclose
  have hlen := hclose.bufs.trans hdrop.bufs_length
  unfold Line.rediscover
  dsimp only
  generalize Line.closeBuffer _ i time .rateChange none = k at hin hlen
  have hrx : (Line.enterSeek { k.flowFall.chooseOutput with
      flow := { k.flowFall.chooseOutput.flow with peerPaused := false, timer := none } }).rx =
      { k.rx with asm := .idle, gapTimer := none } := by
    rw [Line.enterSeek]
    dsimp only
    rw [(chooseOutput_keepsRx _).trans (flowFall_onlyFlow k).rx]
  rw [hrx]
  exact ⟨hin, hlen⟩

theorem flushRx_within (l : Line) (i : LineNo) (time : Word) (h : l.rx.within) :
    (l.flushRx i time).rx.within ∧ (l.flushRx i time).rx.bufs.length ≤ l.rx.bufs.length := by
  have hd := h.shrinks (discardFifo_shrinks l)
  unfold Line.flushRx
  dsimp only
  split
  · split
    · exact ⟨hd, le_rfl⟩
    · exact ⟨h, le_rfl⟩
  · rw [(flowFall_onlyFlow _).rx]
    split
    · have hk := (releaseHold_writerKeeps l.discardFifo).trans (closeBuffer_writerKeeps _ i time .flushed none)
      exact ⟨hd.keeps hk, hk.bufs⟩
    · exact ⟨hd, le_rfl⟩

/-- A checked delimiter block has at most 4 slots (R66). -/
theorem blockDelims_length {r : List Byte} (h : firstFailure (delimChecks r) = none) :
    (blockDelims r (recByte r 4).toNat).length ≤ 4 := by
  simp only [firstFailure, delimChecks, Option.map_eq_none_iff, List.find?_eq_none, List.mem_cons, List.not_mem_nil,
    or_false, forall_eq_or_imp, forall_eq, Bool.not_eq_true'] at h
  obtain ⟨hn, _⟩ := h
  simpa [blockDelims] using hn

/-- The happenings of a line keep its lists within their places, and none but an accepted record lengthens the buffer
list. -/
theorem within_lineMove (m : LineMove s i l) (h : (s.line i).rx.within) :
    l.rx.within ∧ l.rx.bufs.length ≤ (s.line i).rx.bufs.length := by
  have hshrinks : BufferShrinks (s.line i).rx l.rx → l.rx.within ∧ l.rx.bufs.length ≤ (s.line i).rx.bufs.length :=
    fun hb => ⟨h.shrinks hb, hb.bufs_length⟩
  have hkeeps : WriterKeeps (s.line i).rx l.rx → l.rx.within ∧ l.rx.bufs.length ≤ (s.line i).rx.bufs.length :=
    fun hb => ⟨h.keeps hb, hb.bufs⟩
  have hpop := popFifo_flowFall_shrinks (s.line i)
  cases m with
  | settle => exact hshrinks (.refl _)
  | openLine r _ _ _ => exact hshrinks (openWith_shrinks _ r)
  | modify r _ => exact hshrinks (modify_shrinks _ r)
  | setDelims r _ hr =>
    have hk := releaseHold_writerKeeps (s.line i)
    exact ⟨⟨(h.keeps hk).1, (h.keeps hk).2.1, blockDelims_length hr⟩, hk.bufs⟩
  | rediscover _ _ _ => exact rediscover_within _ i _ h
  | takeFlush tag n _ => exact hshrinks (.of_eq (flushCurrent_onlyTx _ i _).rx)
  | flushRx _ => exact flushRx_within _ i _ h
  | takeClose m tag lim n _ => exact hshrinks (takeClose_shrinks _ i _ m tag lim n)
  | overtake g tag _ => exact hshrinks (overtake_shrinks _ i _ g tag)
  | openChar c _ => exact hshrinks (openChar_shrinks _ c ⟨.inl rfl, .inl rfl, .inl rfl, rfl, rfl, .inl rfl, id⟩)
  | trialChar c _ => exact hshrinks (trialChar_shrinks _ i _ _ c)
  | openBreak _ => exact hshrinks (openBreak_shrinks _)
  | failAttempt _ => exact hshrinks (failAttempt_shrinks _ i _ (.refl _))
  | takeInterval n _ => exact hshrinks (takeInterval_shrinks _ i _ _ n)
  | gapExpire _ => exact hshrinks (gapExpire_shrinks _)
  | failDiscovery r _ => exact hshrinks (failDiscovery_shrinks _ i _ r (.refl _))
  | takeChar v pe fe loss _ _ =>
    have hk := takeChar_writerKeeps (s.line i).popFifo.flowFall i s.time v pe fe loss
    exact ⟨(h.shrinks hpop).keeps hk, hk.bufs.trans hpop.bufs_length⟩
  | takeMarker gap loss _ =>
    have hk := takeMarker_writerKeeps (s.line i).popFifo.flowFall gap i s.time loss
    exact ⟨(h.shrinks hpop).keeps hk, hk.bufs.trans hpop.bufs_length⟩
  | answerBuffer _ _ => exact hkeeps (answerBuffer_writerKeeps _ i _)
  | takeChunk n ok _ => exact hkeeps (takeChunk_writerKeeps _ i _ n ok)
  | dataSent bits _ => exact hshrinks (dataSent_shrinks _ i _)
  | flowSent c bits _ => exact hshrinks (.of_eq (flowSent_onlyTx _ i _).rx)
  | endBreak _ => exact hshrinks (.of_eq (endRecord_onlyTx (s.line i).stopBreak i _ .ok).rx)
  | pauseExpire _ => exact hshrinks (appendEvent_shrinks _ _ (.refl _))
  | cutDrain _ => exact hshrinks (abort_shrinks _ i _ (.refl _))
  | event c => exact hshrinks (appendEvent_shrinks _ c (.refl _))

/-- Settling leaves the lists of the receive side. -/
theorem settled_lists (l : Line) (i : LineNo) (time : Word) (q : ReqQueue) :
    (l.settled i time q).rx.fifo = l.rx.fifo ∧ (l.settled i time q).rx.bufs = l.rx.bufs ∧
      (l.settled i time q).rx.delims = l.rx.delims := by
  rw [settled_rx]
  unfold Line.chunkIssued
  split <;> exact ⟨rfl, rfl, rfl⟩

theorem within_settled (h : l.rx.within) (time : Word) (q : ReqQueue) : (l.settled i time q).rx.within := by
  obtain ⟨hf, hb, hd⟩ := settled_lists l i time q
  exact ⟨hf ▸ h.1, hb ▸ h.2.1, hd ▸ h.2.2⟩

theorem OnlyTx.rx_within (hk : OnlyTx l k) (h : l.rx.within) : k.rx.within := hk.rx ▸ h

/-! ### The event list and the trial characters -/

/-- The event list and the trial characters held keep within their places. -/
def Line.eventsFit (l : Line) : Prop := l.events.length ≤ 4 ∧ l.disc.held.length ≤ 2

theorem eventsFit_of_eq (h : l.eventsFit) (he : k.events = l.events) (hd : k.disc = l.disc) : k.eventsFit := by
  unfold Line.eventsFit
  rw [he, hd]
  exact h

theorem OnlyRx.eventsFit (hk : OnlyRx l k) (h : l.eventsFit) : k.eventsFit := eventsFit_of_eq h hk.events hk.disc

theorem OnlyTx.eventsFit (hk : OnlyTx l k) (h : l.eventsFit) : k.eventsFit := eventsFit_of_eq h hk.events hk.disc

theorem OnlyFlow.eventsFit (hk : OnlyFlow l k) (h : l.eventsFit) : k.eventsFit := eventsFit_of_eq h hk.events hk.disc

theorem eventsFit_settled (h : l.eventsFit) (time : Word) (q : ReqQueue) : (l.settled i time q).eventsFit := by
  refine ⟨?_, (settled_keeps l i time q).disc ▸ h.2⟩
  rcases settled_events l i time q with e | ⟨c, hlt, e⟩
  · rw [e]; exact h.1
  · rw [e, List.length_append]
    exact hlt

/-- An event joins a list with room, or is dropped (R13). -/
theorem eventsFit_appendEvent (c : Completion) (h : l.eventsFit) : (l.appendEvent c).eventsFit := by
  unfold Line.appendEvent
  split
  next hlt => exact ⟨by simpa using hlt, h.2⟩
  · exact h

theorem eventsFit_join (e : Bool → FifoEntry) (h : l.eventsFit) : (l.join e).eventsFit :=
  OnlyFlow.eventsFit (flowRise_onlyFlow { l with rx := _ }) h

theorem eventsFit_joinChar (v : Byte) (pe fe : Bool) (h : l.eventsFit) : (l.joinChar v pe fe).eventsFit :=
  eventsFit_join (l := { l with rx := _, counters := _ }) _ h

/-- Aborts stop discovery and keep its progress. -/
theorem eventsFit_abort (i : LineNo) (time : Word) (h : l.eventsFit) : (l.abort i time).eventsFit :=
  (abortCurrent_onlyTx _ i time).eventsFit ⟨h.1, h.2⟩

theorem eventsFit_failDiscovery (i : LineNo) (time : Word) (r : FailReason) (h : l.eventsFit) :
    (l.failDiscovery i time r).eventsFit := eventsFit_abort (l := { l with state := _, close := _ }) i time h

theorem eventsFit_failAttempt (i : LineNo) (time : Word) (h : l.eventsFit) : (l.failAttempt i time).eventsFit := by
  unfold Line.failAttempt
  dsimp only
  split
  · exact eventsFit_failDiscovery i time .attempts ⟨h.1, Nat.zero_le _⟩
  · exact ⟨h.1, Nat.zero_le _⟩

theorem eventsFit_succeed (i : LineNo) (time : Word) (t : List RateEntry) (v w : Byte) (h : l.eventsFit) :
    (l.succeed i time t v w).eventsFit := by
  unfold Line.succeed
  dsimp only
  refine eventsFit_appendEvent _ ?_
  split
  · exact (gapRestart_onlyRx _).eventsFit (eventsFit_joinChar _ _ _ (eventsFit_joinChar _ _ _ ⟨h.1, Nat.zero_le _⟩))
  · exact ⟨h.1, Nat.zero_le _⟩

theorem eventsFit_trialChar (i : LineNo) (time : Word) (t : List RateEntry) (c : Received) (h : l.eventsFit) :
    (l.trialChar i time t c).eventsFit := by
  unfold Line.trialChar
  dsimp only
  repeat' split
  · exact eventsFit_failAttempt i time h
  · exact ⟨h.1, by simp⟩
  · exact eventsFit_failAttempt i time h
  · exact eventsFit_succeed i time t _ _ h

theorem eventsFit_openWith (r : List Byte) (h : l.eventsFit) : (l.openWith r).eventsFit := by
  unfold Line.openWith
  dsimp only
  split <;> exact ⟨h.1, Nat.zero_le _⟩

theorem eventsFit_modify (r : List Byte) (h : l.eventsFit) : (l.modify r).eventsFit := by
  unfold Line.modify
  dsimp only
  split
  · exact (flowRise_onlyFlow _).eventsFit h
  · exact (flowFall_onlyFlow _).eventsFit h

theorem eventsFit_rediscover (i : LineNo) (time : Word) (h : l.eventsFit) : (l.rediscover i time).eventsFit := by
  unfold Line.rediscover
  dsimp only
  have hclose := (closeBuffer_onlyRx { l.discardFifo with rx := { l.discardFifo.rx with hold := [] } } i time
    .rateChange none).eventsFit h
  have hfall := (flowFall_onlyFlow _).eventsFit hclose
  exact ⟨(chooseOutput_events _).symm ▸ hfall.1, Nat.zero_le _⟩

theorem eventsFit_flushRx (i : LineNo) (time : Word) (h : l.eventsFit) : (l.flushRx i time).eventsFit := by
  unfold Line.flushRx
  dsimp only
  split
  · split <;> exact h
  · refine (flowFall_onlyFlow _).eventsFit ?_
    split
    · exact ((releaseHold_onlyRx l.discardFifo).trans (closeBuffer_onlyRx _ _ _ _ _)).eventsFit h
    · exact h

theorem eventsFit_takeClose (i : LineNo) (time : Word) (m : CloseMode) (tag : Half) (limit n : Nat) (h : l.eventsFit) :
    (l.takeClose i time m tag limit n).eventsFit := by
  unfold Line.takeClose
  cases m with
  | graceful => exact ⟨h.1, Nat.zero_le _⟩
  | immediate => exact eventsFit_abort i time ⟨h.1, Nat.zero_le _⟩

theorem eventsFit_overtake (i : LineNo) (time : Word) (g tag : Half) (h : l.eventsFit) :
    (l.overtake i time g tag).eventsFit := by
  unfold Line.overtake
  dsimp only
  split
  · exact eventsFit_abort (l := { l with long := _, close := _ }) i time h
  · exact h

theorem eventsFit_stopLine (i : LineNo) (time : Word) (h : l.eventsFit) : (l.stopLine i time).eventsFit := by
  unfold Line.stopLine
  split
  · exact h
  · split
    · exact eventsFit_abort i time h
    · exact h
  · exact eventsFit_abort (l := { l with state := _, close := _ }) i time h

theorem eventsFit_openChar (c : Received) (h : l.eventsFit) : (l.openChar c).eventsFit := by
  have hg := (gapRestart_onlyRx l).eventsFit h
  unfold Line.openChar
  dsimp only
  repeat' split
  · exact (peerFlow_onlyFlow _ _).eventsFit hg
  · exact hg
  · exact eventsFit_joinChar _ _ _ hg

theorem eventsFit_openBreak (h : l.eventsFit) : l.openBreak.eventsFit := by
  unfold Line.openBreak
  dsimp only
  split
  · exact h
  · exact eventsFit_join (l := { l with rx := _, counters := _ }) _ h

theorem eventsFit_evaluateWindow (i : LineNo) (time : Word) (t : List RateEntry) (h : l.eventsFit) :
    (l.evaluateWindow i time t).eventsFit := by
  unfold Line.evaluateWindow
  split
  · exact ⟨h.1, Nat.zero_le _⟩
  · exact eventsFit_failAttempt i time h

theorem eventsFit_takeInterval (i : LineNo) (time : Word) (t : List RateEntry) (n : Nat) (h : l.eventsFit) :
    (l.takeInterval i time t n).eventsFit := by
  rw [takeInterval_eq]
  repeat' split
  · exact ⟨h.1, h.2⟩
  · exact eventsFit_evaluateWindow (l := l.countInterval n) i time t h
  · exact ⟨h.1, h.2⟩

theorem eventsFit_gapExpire (h : l.eventsFit) : l.gapExpire.eventsFit := by
  unfold Line.gapExpire
  dsimp only
  split
  · exact eventsFit_join (l := { l with rx := _ }) _ h
  · exact h

theorem eventsFit_takeMarker (gap : Bool) (i : LineNo) (time : Word) (loss : Bool) (h : l.eventsFit) :
    (l.takeMarker gap i time loss).eventsFit := by
  have hclose : ∀ reason, OnlyRx l ((l.releaseHold.noteLoss loss).closeBuffer i time reason none) := fun _ =>
    (releaseHold_onlyRx l).trans ((noteLoss_onlyRx _ _).trans (closeBuffer_onlyRx _ _ _ _ _))
  unfold Line.takeMarker Line.takeGap Line.takeBreak
  dsimp only
  repeat' split
  · exact (hclose .gap).eventsFit h
  · exact (carryLoss_onlyRx _ _).eventsFit h
  · exact (hclose .brk).eventsFit h
  · exact (carryLoss_onlyRx _ _).eventsFit (eventsFit_appendEvent _ h)

theorem eventsFit_dataSent (i : LineNo) (time : Word) (h : l.eventsFit) : (l.dataSent i time).eventsFit := by
  unfold Line.dataSent
  dsimp only
  repeat' split
  · exact (endRecord_onlyTx _ _ _ _).eventsFit h
  · exact h
  · exact (endRecord_onlyTx _ _ _ _).eventsFit h
  · exact h
  · exact h

theorem eventsFit_lineMove (m : LineMove s i l) (h : (s.line i).eventsFit) : l.eventsFit := by
  cases m with
  | settle => exact h
  | openLine r _ _ _ => exact eventsFit_openWith r h
  | modify r _ => exact eventsFit_modify r h
  | setDelims r _ _ => exact (setDelims_onlyRx _ r).eventsFit h
  | rediscover _ _ _ => exact eventsFit_rediscover i _ h
  | takeFlush tag n _ => exact OnlyTx.eventsFit (flushCurrent_onlyTx _ i _) h
  | flushRx _ => exact eventsFit_flushRx i _ h
  | takeClose m tag lim n _ => exact eventsFit_takeClose i _ m tag lim n h
  | overtake g tag _ => exact eventsFit_overtake i _ g tag h
  | openChar c _ => exact eventsFit_openChar c h
  | trialChar c _ => exact eventsFit_trialChar i _ _ c h
  | openBreak _ => exact eventsFit_openBreak h
  | failAttempt _ => exact eventsFit_failAttempt i _ h
  | takeInterval n _ => exact eventsFit_takeInterval i _ _ n h
  | gapExpire _ => exact eventsFit_gapExpire h
  | failDiscovery r _ => exact eventsFit_failDiscovery i _ r h
  | takeChar v pe fe loss _ _ =>
    exact (takeChar_onlyRx _ _ _ _ _ _ _).eventsFit ((flowFall_onlyFlow (s.line i).popFifo).eventsFit h)
  | takeMarker gap loss _ =>
    exact eventsFit_takeMarker gap i _ loss ((flowFall_onlyFlow (s.line i).popFifo).eventsFit h)
  | answerBuffer _ _ => exact (answerBuffer_onlyRx _ _ _).eventsFit h
  | takeChunk n ok _ => exact (takeChunk_onlyRx _ _ _ _ _).eventsFit h
  | dataSent bits _ => exact eventsFit_dataSent i _ h
  | flowSent c bits _ => exact (flowSent_onlyTx _ _ _).eventsFit h
  | endBreak _ => exact OnlyTx.eventsFit (OnlyTx.trans (k := (s.line i).stopBreak) rfl (endRecord_onlyTx _ _ _ _)) h
  | pauseExpire _ => exact eventsFit_appendEvent _ h
  | cutDrain _ => exact eventsFit_abort i _ h
  | event c => exact eventsFit_appendEvent c h

/-! ### One line's collections -/

/-- The collections of one line keep within their places. -/
def Line.within (l : Line) : Prop := l.rx.within ∧ l.eventsFit

/-- The wind-up ends with at most two answers and RATE_NOT_FOUND, in an empty event list (R9). -/
theorem finalRecords_length (l : Line) (i : LineNo) (time : Word) (stopped : Bool) :
    (l.finalRecords i time stopped).length ≤ 3 := by
  have hlong : (longRecords i time stopped l.long).length ≤ 2 := by
    unfold longRecords
    split <;> simp
  unfold Line.finalRecords
  rw [List.length_append]
  split
  · rw [List.length_singleton]; omega
  · rw [List.length_nil]; omega

theorem windUpDone_events (h : s.windUpDone i = true) : (s.line i).events = [] := by
  simp only [State.windUpDone, Bool.and_eq_true, List.isEmpty_iff] at h
  exact h.1.1.1.1.2

theorem within_quietMove (m : QuietMove s i l) (h : (s.line i).within) : l.within := by
  refine ⟨h.1.shrinks (quietMove_shrinks m), ?_⟩
  cases m with
  | clearCounters => exact h.2
  | breakEnds _ => exact (gapRestart_onlyRx _).eventsFit h.2
  | measure _ => exact h.2
  | assembler _ => exact h.2
  | finishClose stopped hd =>
    refine ⟨?_, h.2.2⟩
    have := finalRecords_length (s.line i) i s.time stopped
    simp only [Line.finishClose, windUpDone_events hd, List.nil_append]
    omega
  | giveUpRx _ _ => exact h.2
  | giveUpTx _ => exact h.2
  | giveUpEvent =>
    refine ⟨?_, h.2.2⟩
    have := h.2.1
    simp only [List.length_tail]
    omega

theorem within_reset : Line.reset.within := by
  simp [Line.within, RxSide.within, Line.eventsFit, Line.reset, RxSide.reset, Discovery.reset]

theorem Line.within.settled (h : l.within) (time : Word) (q : ReqQueue) : (l.settled i time q).within :=
  ⟨within_settled h.1 time q, eventsFit_settled h.2 time q⟩

theorem OnlyTx.within (hk : OnlyTx l k) (h : l.within) : k.within := ⟨hk.rx_within h.1, hk.eventsFit h.2⟩

/-- A line with room takes a further receive post record. -/
theorem within_deliverRx (h : l.within) (hroom : l.rx.bufs.length ≤ 3) (b : RxBuf) :
    Line.within { l with rx := { l.rx with bufs := l.rx.bufs ++ [b] } } :=
  ⟨⟨h.1.1, by simpa using Nat.lt_succ_of_le hroom, h.1.2.2⟩, h.2⟩

/-- Each change of a line keeps its collections within their places, where a fetch of its RPQ kept a place free. -/
theorem within_change (h : (s.line i).within) (hf : (s.rq (rpq i)).fetch = true → (s.line i).rx.bufs.length ≤ 3)
    (m : LineChange s t i l) : l.within := by
  cases m with
  | same => exact h
  | quiet _ m => exact within_quietMove m h
  | takes k time q m => exact Line.within.settled ⟨(within_lineMove m h.1).1, eventsFit_lineMove m h.2⟩ time q
  | dataRead n x time q _ _ => exact ((takeRead_onlyTx (s.line i) i time x.data).within h).settled time q
  | deliverRx b time q hfetch _ _ _ => exact (within_deliverRx h (hf hfetch) _).settled time q
  | answerTx tag st time q _ _ _ => exact ((answerTx_onlyTx (s.line i) i time tag st).within h).settled time q
  | acceptTx r ws time q _ _ _ => exact ((acceptTx_onlyTx (s.line i) i time ws r).within h).settled time q
  | stopLine time => exact ⟨h.1.shrinks (stopLine_shrinks _ i time), eventsFit_stopLine i time h.2⟩
  | tick => exact h
  | fresh => exact within_reset
  | expireStop =>
    unfold Line.expireStop
    split
    · exact ⟨h.1, Nat.zero_le _, h.2.2⟩
    · exact within_reset

/-! ### The place that a fetch of an RPQ keeps free -/

theorem settled_bufs_length (l : Line) (time : Word) (q : ReqQueue) :
    (l.settled i time q).rx.bufs.length = l.rx.bufs.length := by
  rw [(settled_lists l i time q).2.1]

theorem room_of_asksRpq {q : ReqQueue} (h : l.asksRpq q = true) : l.rx.bufs.length ≤ 3 := by
  obtain ⟨_, hroom, _⟩ := (asksRpq_iff l q).1 h
  omega

/-- Only a record that a fetch has delivered lengthens the buffer list of a line, which then asks again only with room. -/
theorem bufs_change (h : (s.line i).rx.within) (m : LineChange s t i l) :
    l.rx.bufs.length ≤ (s.line i).rx.bufs.length ∨ ((t.rq (rpq i)).fetch = true → l.rx.bufs.length ≤ 3) := by
  cases m with
  | same => exact .inl le_rfl
  | quiet _ m => exact .inl (quietMove_shrinks m).bufs_length
  | takes k time q m => exact .inl ((settled_bufs_length k time q).trans_le (within_lineMove m h).2)
  | dataRead n x time q _ _ =>
    have hk := (takeRead_onlyTx (s.line i) i time x.data).rx
    exact .inl ((settled_bufs_length _ time q).trans_le (by rw [hk]))
  | deliverRx b time q _ _ _ hasks =>
    exact .inr fun hf => by
      obtain ⟨x, hx⟩ := hasks hf
      exact room_of_asksRpq hx
  | answerTx tag st time q _ _ _ =>
    have hk := (answerTx_onlyTx (s.line i) i time tag st).rx
    exact .inl ((settled_bufs_length _ time q).trans_le (by rw [hk]))
  | acceptTx r ws time q _ _ _ =>
    have hk := (acceptTx_onlyTx (s.line i) i time ws r).rx
    exact .inl ((settled_bufs_length _ time q).trans_le (by rw [hk]))
  | stopLine time => exact .inl (stopLine_shrinks _ i time).bufs_length
  | tick => exact .inl le_rfl
  | fresh => exact .inl (Nat.zero_le _)
  | expireStop =>
    unfold Line.expireStop
    split
    · exact .inl le_rfl
    · exact .inl (Nat.zero_le _)

/-- A fetch in flight of an RPQ has been asked for in this move, or was in flight before. -/
theorem fetch_change {q : RqNo} {x : ReqQueue} (m : RqChange s t q x) (hx : x.fetch = true) :
    (s.rq q).fetch = true ∨ ∃ y, FetchAsked t q y := by
  cases m with
  | asked b hb =>
    rcases Bool.or_eq_true_iff.1 hx with h | h
    · exact .inl h
    · exact .inr ⟨_, hb h⟩
  | accepted b hf _ _ => exact .inl hf
  | tail _ _ _ _ _ => exact .inl hx
  | advanced _ => exact .inl hx
  | flags _ _ hf => exact .inl (hf hx)
  | fresh => cases hx
  | installed _ _ _ => exact .inl hx

/-- Every move keeps the collections of a line within their places, with a place free for the record that is fetched. -/
theorem move_lineWithin (m : Move tbl s t) (h : (s.line i).within)
    (hf : (s.rq (rpq i)).fetch = true → (s.line i).rx.bufs.length ≤ 3) :
    (t.line i).within ∧ ((t.rq (rpq i)).fetch = true → (t.line i).rx.bufs.length ≤ 3) := by
  refine ⟨within_change h hf (m.line i), fun ht => ?_⟩
  rcases bufs_change h.1 (m.line i) with hle | hroom
  · rcases fetch_change (m.rq (rpq i)) ht with hs | ⟨y, hasked⟩
    · exact hle.trans (hf hs)
    · exact room_of_asksRpq (hasked.rpq i rfl)
  · exact hroom ht

/-! ### Completion queues -/

/-- The number of a producer: 8 receive slots, 8 transmit slots, 8 event lists and the Control Unit (R139). -/
def Producer.number : Producer → Fin 25
  | .rxSlot i => ⟨i.val, by omega⟩
  | .txSlot i => ⟨8 + i.val, by omega⟩
  | .events i => ⟨16 + i.val, by omega⟩
  | .control => 24

theorem Producer.number_injective : Function.Injective Producer.number := by
  intro p q h
  have hval := congrArg Fin.val h
  cases p <;> cases q <;> simp [Producer.number, Fin.ext_iff] at hval ⊢ <;> omega

/-- A list of producers without repetition has at most 25 of them. -/
theorem producers_length {ps : List Producer} (h : ps.Nodup) : ps.length ≤ 25 := by
  have := (h.map Producer.number_injective).length_le_card
  simpa using this

/-- The staging list of a queue keeps within its 8 places, and no producer waits twice. -/
def CplQueue.within (x : CplQueue) : Prop := x.staging.length ≤ 8 ∧ x.waiting.Nodup

theorem cqWithin_change {c : CqNo} {x : CplQueue} (m : CqChange s c x) (h : (s.cq c).within) : x.within := by
  cases m with
  | retire head f _ _ _ hf =>
    rcases hf with rfl | rfl
    · exact h
    · rw [arm_eq]
      split_ifs <;> exact h
  | stage e he => exact ⟨by simpa using he, h.2⟩
  | wait p hp =>
    refine ⟨h.1, List.nodup_append.2 ⟨h.2, List.nodup_singleton p, ?_⟩⟩
    simpa using fun a ha => ne_of_mem_of_not_mem ha hp
  | written ws more _ hs hm =>
    rw [CplQueue.writtenWith, noteWritten_eq]
    refine ⟨?_, hs.sublist.nodup h.2⟩
    have := h.1
    simp only [List.length_append, List.length_tail]
    omega
  | fresh => exact ⟨Nat.zero_le _, List.nodup_nil⟩
  | discard _ => exact ⟨Nat.zero_le _, List.nodup_nil⟩
  | timer _ => exact h
  | write _ _ => exact h
  | moderate => exact h
  | installed _ _ _ => exact h

/-! ### The window table -/

theorem move_windows (m : Move tbl s t) (h : s.windows.length = 8) : t.windows.length = 8 := by
  have hsame : t.windows = s.windows → t.windows.length = 8 := fun e => e ▸ h
  cases m
  case registers hc _ => exact hsame hc.windows
  case takes ht => exact hsame (by rw [ht.frame])
  case dataRead ht => exact hsame (by rw [ht.frame]; rfl)
  case deliverRx ht | answerTx ht | acceptTx ht => exact hsame (by rw [ht.frame, advanceHead_eq]; rfl)
  case advanceHead => exact hsame (by rw [advanceHead_eq])
  case askRpq => exact hsame (by rw [askRpq_eq]; rfl)
  case askTxq => exact hsame (by rw [askTxq_eq]; rfl)
  case askCtl => exact hsame (by rw [askCtl_eq]; split <;> rfl)
  case grant => exact hsame (by unfold State.beginAccess; split <;> rfl)
  case readSetup => exact hsame (by unfold State.beginAccess; split <;> rfl)
  case enterLoading =>
    obtain ⟨m, n, he, _⟩ := enterLoading_eq s
    rw [he]
    rfl
  case failLoading => rfl
  case install => simp [State.install, setupWindows]
  all_goals exact hsame rfl

/-! ### Every collection but the transmit FIFO -/

/-- The capacities, line by line and queue by queue. -/
theorem withinCapacity_iff (s : State) : WithinCapacity s ↔
    (∀ i, (s.line i).within ∧ ((s.rq (rpq i)).fetch = true → (s.line i).rx.bufs.length ≤ 3)) ∧
      (∀ c, (s.cq c).within) ∧ s.windows.length = 8 := by
  refine and_congr (forall_congr' fun i => ?_) (and_congr_left fun _ => forall_congr' fun c => ?_)
  · simp only [Line.within, RxSide.within, Line.eventsFit]
    tauto
  · exact ⟨fun h => ⟨h.1, h.2.2⟩, fun h => ⟨h.1, producers_length h.2, h.2⟩⟩

theorem keptByEveryStep_withinCapacity : KeptByEveryStep WithinCapacity := by
  refine keptByEveryStep_of_moves (fun s t hc h => ?_) (fun s t hr _ => ?_) fun s t m h => ?_
  · obtain ⟨hl, hq, hw⟩ := h
    refine ⟨fun i => ?_, fun c => ?_, hc.windows ▸ hw⟩
    · rw [State.line_congr hc.lines, State.rq_congr hc.reqQueues]
      exact hl i
    · rw [State.cq_congr hc.cplQueues]
      exact hq c
  · obtain ⟨_, hreset, _⟩ := resetMeetsTheInvariants
    rw [withinCapacity_iff] at hreset ⊢
    refine ⟨fun i => ?_, fun c => ?_, ?_⟩
    · rw [hr.line, hr.rq]
      exact ⟨within_reset, fun h => by cases h⟩
    · rw [hr.cq]
      exact ⟨Nat.zero_le _, List.nodup_nil⟩
    · rw [hr.1]
      exact hreset.2.2
  · rw [withinCapacity_iff] at h ⊢
    exact ⟨fun i => move_lineWithin m (h.1 i).1 (h.1 i).2, fun c => cqWithin_change (m.cq c) (h.2.1 c), move_windows m h.2.2⟩

end Sys2Proof.Machine
end

section
/-! PROOF. The Rate Candidate Table stays valid, and discovery never sees it change (R35 to R38). -/

namespace Sys2Proof.Machine

variable {tbl : Bool} {s t : State} {i : LineNo} {l k : Line}

/-! ### Who enters discovery -/

theorem discovering_iff (l : Line) : l.discovering = true ↔ l.state = .seek ∨ l.state = .trial := decide_eq_true_iff

theorem discovering_of_state (e : k.state = l.state) (h : k.discovering = true) : l.discovering = true := by
  rw [discovering_iff] at h ⊢
  rwa [← e]

theorem not_discovering_of_closing (e : l.state = .closing) : l.discovering = false := by
  simp [Line.discovering, e]

theorem discovering_settled {time : Word} {q : ReqQueue} (h : (l.settled i time q).discovering = true) :
    l.discovering = true := discovering_of_state (settled_keeps l i time q).state h

theorem dataSent_state (l : Line) (i : LineNo) (time : Word) : (l.dataSent i time).state = l.state := by
  unfold Line.dataSent
  dsimp only
  repeat' split
  · exact endRecord_state _ i time _
  · rfl
  · exact endRecord_state _ i time _
  · rfl
  · rfl

/-- Only OPEN_LINE and REDISCOVER, taken with the Control Unit IDLE, take a line into SEEK. -/
theorem discovering_lineMove (m : LineMove s i l) (h : l.discovering = true) :
    (s.line i).discovering = true ∨ s.control.st = .idle := by
  have hkept : l.state = (s.line i).state → (s.line i).discovering = true ∨ s.control.st = .idle :=
    fun e => .inl (discovering_of_state e h)
  have hin {x : LineState} (hx : (s.line i).state = x) (hd : x = .seek ∨ x = .trial) :
      (s.line i).discovering = true ∨ s.control.st = .idle := .inl ((discovering_iff _).2 (hx ▸ hd))
  cases m with
  | openLine _ hidle _ _ => exact .inr hidle
  | rediscover hidle _ _ => exact .inr hidle
  | trialChar _ hs => exact hin hs (.inr rfl)
  | failAttempt hs => exact hin hs (.inr rfl)
  | takeInterval _ hs => exact hin hs (.inl rfl)
  | failDiscovery _ hd => exact .inl hd
  | takeClose m tag lim n _ =>
    rw [not_discovering_of_closing (takeClose_state _ i _ m tag lim n)] at h
    cases h
  | settle => exact hkept rfl
  | modify r _ => exact hkept (modify_state _ r)
  | setDelims r _ _ => exact hkept (setDelims_onlyRx _ r).state
  | takeFlush tag n _ => exact hkept (takeFlush_state _ i _ tag n)
  | flushRx _ => exact hkept (flushRx_state _ i _)
  | overtake g tag _ => exact hkept (overtake_state _ i _ g tag)
  | openChar c _ => exact hkept (openChar_state _ c)
  | openBreak _ => exact hkept (openBreak_state _)
  | gapExpire _ => exact hkept (gapExpire_state _)
  | takeChar v pe fe loss _ _ => exact hkept ((takeChar_onlyRx _ _ _ _ _ _ _).state.trans (popFifo_flowFall_state _))
  | takeMarker gap loss _ => exact hkept ((takeMarker_state _ gap i _ loss).trans (popFifo_flowFall_state _))
  | answerBuffer _ _ => exact hkept (answerBuffer_onlyRx _ _ _).state
  | takeChunk n ok _ => exact hkept (takeChunk_onlyRx _ _ _ _ _).state
  | dataSent bits _ => exact hkept (dataSent_state _ i _)
  | flowSent c bits _ => exact hkept (flowSent_onlyTx _ _ _).state
  | endBreak _ => exact hkept (endRecord_state (s.line i).stopBreak i _ .ok)
  | pauseExpire _ => exact hkept (appendEvent_state _ _)
  | cutDrain _ => exact hkept (abort_state _ i _)
  | event c => exact hkept (appendEvent_state _ c)

theorem discovering_quietMove (m : QuietMove s i l) (h : l.discovering = true) : (s.line i).discovering = true := by
  cases m with
  | finishClose _ _ => cases h
  | breakEnds _ => 
    have hrestart (k : Line) (hd : k.gapRestart.discovering = true) : k.discovering = true :=
      discovering_of_state (gapRestart_onlyRx k).state hd
    have hd := hrestart _ h
    exact hd
  | clearCounters => exact h
  | measure _ => exact h
  | assembler _ => exact h
  | giveUpRx _ _ => exact h
  | giveUpTx _ => exact h
  | giveUpEvent => exact h

theorem discovering_stopLine (l : Line) (i : LineNo) (time : Word) : (l.stopLine i time).discovering = false := by
  have hstate := stopLine_state l i time
  by_cases hc : l.state = .closed
  · simp [Line.stopLine, hc, Line.discovering]
  · simp_all [Line.discovering]

theorem discovering_change (m : LineChange s t i l) (h : l.discovering = true) :
    (s.line i).discovering = true ∨ s.control.st = .idle := by
  have hsettled {k : Line} {time : Word} {q : ReqQueue} (hd : (k.settled i time q).discovering = true)
      (hk : k.state = (s.line i).state) : (s.line i).discovering = true ∨ s.control.st = .idle :=
    .inl (discovering_of_state hk (discovering_settled hd))
  cases m with
  | same => exact .inl h
  | quiet _ m => exact .inl (discovering_quietMove m h)
  | takes k time q m => exact discovering_lineMove m (discovering_settled h)
  | dataRead n x time q _ _ => exact hsettled h (takeRead_onlyTx (s.line i) i time x.data).state
  | deliverRx b time q _ _ _ _ => exact hsettled h (by rfl)
  | answerTx tag st time q _ _ _ => exact hsettled h (answerTx_onlyTx (s.line i) i time tag st).state
  | acceptTx r ws time q _ _ _ => exact hsettled h (acceptTx_onlyTx (s.line i) i time ws r).state
  | stopLine time =>
    rw [discovering_stopLine] at h
    cases h
  | tick => exact .inl h
  | fresh => cases h
  | expireStop =>
    unfold Line.expireStop at h
    split at h
    · exact .inl h
    · cases h

/-! ### What the Control Unit holds -/

/-- A request that the Control Unit holds is held from this move on, with what its checks have found, or was held. -/
theorem Move.holding (m : Move tbl s t) (h : t.control.st = .holding) :
    (s.control.st = .holding ∧ t.control.req = s.control.req) ∨
    (t.lines = s.lines ∧ t.reqQueues = s.reqQueues ∧ (s.rq 0).fetch = false ∧ ∃ r, t.control.req = some r ∧
      ((reqCode r).toNat = 1 → (∀ i, (s.line i).discovering = false) ∧
        1 ≤ (recByte r 4).toNat ∧ (recByte r 4).toNat ≤ 12)) := by
  have hkept : t.control = s.control → s.control.st = .holding ∧ t.control.req = s.control.req :=
    fun e => ⟨e ▸ h, by rw [e]⟩
  cases m
  case registers hc _ => exact .inl <| hkept hc.control
  case takes ht => exact .inl <| hkept (by rw [ht.frame])
  case dataRead ht => exact .inl <| hkept (by rw [ht.frame]; rfl)
  case deliverRx ht | answerTx ht | acceptTx ht => exact .inl <| hkept (by rw [ht.frame, advanceHead_eq]; rfl)
  case advanceHead => exact .inl <| hkept (by rw [advanceHead_eq])
  case askRpq => exact .inl <| hkept (by rw [askRpq_eq]; rfl)
  case askTxq => exact .inl <| hkept (by rw [askTxq_eq]; rfl)
  case askCtl =>
    by_cases hask : s.control.st = .idle ∧ s.control.slot = none ∧ s.part = .running ∧ (s.rq 0).fetchable = true
    · rw [(askCtl_eq s).trans (if_pos hask)] at h
      cases h
    · exact .inl <| hkept (by rw [(askCtl_eq s).trans (if_neg hask)])
  case control c hc =>
    rcases hc with hc | ⟨hst, hreq⟩
    · exact absurd (hc.symm.trans h) (by simp)
    · exact .inl ⟨hst.symm.trans h, hreq⟩
  case hold r hf hr => exact .inr ⟨rfl, rfl, hf, r, rfl, hr⟩
  case grant => exact .inl <| hkept (by unfold State.beginAccess; split <;> rfl)
  case readSetup => exact .inl <| hkept (by unfold State.beginAccess; split <;> rfl)
  case enterLoading =>
    obtain ⟨m, n, he, _⟩ := enterLoading_eq s
    rw [he] at h
    cases h
  case enterFaulted => cases h
  case expireStopLimit => cases h
  all_goals exact .inl <| hkept rfl

/-- Every move keeps what a held request rests on. -/
theorem move_holdingGuardsTable (m : Move tbl s t) (h : HoldingGuardsTable s) : HoldingGuardsTable t := by
  intro ht
  rcases m.holding ht with ⟨hs, hreq⟩ | ⟨hlines, hrqs, hf, r, hr, hguard⟩
  · obtain ⟨hfetch, hguard⟩ := h hs
    refine ⟨?_, fun r hr hc => ?_⟩
    · by_contra hne
      rcases fetch_change (m.rq 0) (by simpa using hne) with hold | ⟨x, hasked⟩
      · rw [hfetch] at hold
        cases hold
      · exact absurd ((hasked.ctl rfl).symm.trans ht) (by simp)
    · obtain ⟨hlines, hcount⟩ := hguard r (hreq ▸ hr) hc
      refine ⟨fun i => ?_, hcount⟩
      by_contra hne
      rcases discovering_change (m.line i) (by simpa using hne) with hold | hidle
      · rw [hlines i] at hold
        cases hold
      · exact absurd (hidle.symm.trans hs) (by simp)
  · refine ⟨by rw [State.rq_congr hrqs]; exact hf, fun r' hr' hc => ?_⟩
    obtain rfl := Option.some.inj (hr.symm.trans hr')
    obtain ⟨hd, hcount⟩ := hguard hc
    exact ⟨fun i => by rw [State.line_congr hlines]; exact hd i, hcount⟩

/-! ### The rate table -/

/-- A table whose checks have passed holds as many entries as were asked for, all valid (R35, R37). -/
theorem rateTable_valid_of_ok {bs : List Byte} {n : Nat} (hn : n ≤ 12) (h : tableStatus (rateEntriesOf bs n) = .ok) :
    (rateEntriesOf bs n).length ≤ 12 ∧
      (∀ e ∈ rateEntriesOf bs n, 32 ≤ e.divisor ∧ e.divisor ≤ 65535 ∧ 16 ≤ e.min ∧ e.min ≤ e.max ∧ e.max ≤ 65535) ∧
      (rateEntriesOf bs n).Pairwise fun a b => a.max < b.min ∨ b.max < a.min := by
  rw [tableStatus_eq] at h
  split_ifs at h with hbad hoverlap
  · refine ⟨by simpa [rateEntriesOf] using hn, fun e he => ?_, by simpa using hoverlap⟩
    obtain ⟨k, _, rfl⟩ := List.mem_map.1 he
    have hrange : ¬ ((rateEntryOf bs k).divisor < 32 ∨ (rateEntryOf bs k).min < 16 ∨
        (rateEntryOf bs k).max < (rateEntryOf bs k).min) := fun hb => hbad ⟨_, he, hb⟩
    have hdivisor : (rateEntryOf bs k).divisor < 2 ^ 16 := BitVec.isLt _
    have hmax : (rateEntryOf bs k).max < 2 ^ 16 := BitVec.isLt _
    omega

/-- A move leaves the rate table, empties it, or, with a SET_RATE_TABLE held, replaces it with a table that has passed
its checks; and only with `tbl` set it does not leave it. -/
theorem Move.rateTable_cases (m : Move tbl s t) : t.rateTable = s.rateTable ∨ tbl = true ∧ (t.rateTable = [] ∨
    ∃ r bs, s.control.st = .holding ∧ s.control.req = some r ∧ (reqCode r).toNat = 1 ∧
      t.rateTable = rateEntriesOf bs (recByte r 4).toNat ∧
      tableStatus (rateEntriesOf bs (recByte r 4).toNat) = .ok) := by
  cases m
  case rateTable r bs htbl hst hreq hc hok => exact .inr ⟨htbl, .inr ⟨r, bs, hst, hreq, hc, rfl, hok⟩⟩
  case enterLoading htbl =>
    obtain ⟨m, n, he, _⟩ := enterLoading_eq s
    exact .inr ⟨htbl, .inl (by rw [he])⟩
  case registers hc _ => exact .inl hc.rateTable
  case takes ht => exact .inl (by rw [ht.frame])
  case dataRead ht => exact .inl (by rw [ht.frame]; rfl)
  case deliverRx ht | answerTx ht | acceptTx ht => exact .inl (by rw [ht.frame, advanceHead_eq]; rfl)
  case advanceHead => exact .inl (by rw [advanceHead_eq])
  case askRpq => exact .inl (by rw [askRpq_eq]; rfl)
  case askTxq => exact .inl (by rw [askTxq_eq]; rfl)
  case askCtl => exact .inl (by rw [askCtl_eq]; split <;> rfl)
  case grant => exact .inl (by unfold State.beginAccess; split <;> rfl)
  case readSetup => exact .inl (by unfold State.beginAccess; split <;> rfl)
  all_goals exact .inl rfl

theorem move_rateTableValid (m : Move tbl s t) (hg : HoldingGuardsTable s) (h : RateTableValid s) : RateTableValid t := by
  rcases m.rateTable_cases with e | ⟨_, e | ⟨r, bs, hst, hreq, hc, e, hok⟩⟩
  · unfold RateTableValid
    rw [e]
    exact h
  · simp [RateTableValid, e]
  · unfold RateTableValid
    rw [e]
    exact rateTable_valid_of_ok ((hg hst).2 r hreq hc).2.2 hok

theorem Moves.rateTable_eq (h : Moves false s t) : t.rateTable = s.rateTable := by
  refine h.keep (P := fun u => u.rateTable = s.rateTable) (fun u v m hu => ?_) rfl
  rcases m.rateTable_cases with e | ⟨hf, _⟩
  · exact e.trans hu
  · cases hf

theorem holdingGuardsTable_core (hc : SameCore s t) (h : HoldingGuardsTable s) : HoldingGuardsTable t := by
  intro ht
  rw [hc.control] at ht ⊢
  obtain ⟨hfetch, hguard⟩ := h ht
  refine ⟨by rw [State.rq_congr hc.reqQueues]; exact hfetch, fun r hr hcode => ?_⟩
  obtain ⟨hlines, hcount⟩ := hguard r hr hcode
  exact ⟨fun i => by rw [State.line_congr hc.lines]; exact hlines i, hcount⟩

theorem holdingGuardsTable_reset (hr : ResetValues s t) : HoldingGuardsTable t := by
  intro ht
  rw [hr.1] at ht
  cases ht

/-- A command that may change the table finds no line in discovery, or leaves none in it, or leaves the table. -/
theorem rateTable_of_discovering {c : Instr} {i j : LineNo} (hg : HoldingGuardsTable s) (h : exec c s = .next t)
    (hi : (s.line i).discovering = true) (hj : (t.line j).discovering = true) (hc : Instr.changesTable c = true) :
    t.rateTable = s.rateTable := by
  cases c
  case tableReadEnds =>
    have hnone : s.heldResult? 1 .tableRead = none := by
      by_contra hne
      obtain ⟨⟨r, x⟩, hrx⟩ := Option.ne_none_iff_exists'.1 hne
      obtain ⟨hst, hreq, hcode, _⟩ := heldResult_holding hrx
      have := ((hg hst).2 r hreq hcode).1 i
      rw [hi] at this
      cases this
    have hexec : exec .tableReadEnds s = .next s := by
      cases hr : s.resetHeld with
      | true => exact congrArg Host.Outcome.next (if_pos hr)
      | false =>
        show execTableReadEnds s = _
        rw [execTableReadEnds, take_of_running hr]
        simp only [hnone]
    rw [hexec] at h
    cases h
    rfl
  case runWritten1 =>
    cases hr : s.resetHeld with
    | true =>
      have hexec : exec .runWritten1 s = .next s := congrArg Host.Outcome.next (if_pos hr)
      rw [hexec] at h
      cases h
      rfl
    | false =>
      by_cases hp : s.part = .stopped
      · have hlines : t.lines = freshLines := by
          obtain ⟨u, hu, hstart, _⟩ := (runWritten1StartsLoading s hr).2 hp
          rw [hu] at h
          cases h
          rw [hstart]
        have hfresh : t.line j = Line.reset := (congrArg (fun v : Vector Line 8 => v[j]) hlines).trans (freshLines_line j)
        rw [hfresh] at hj
        cases hj
      · rw [(runWritten1StartsLoading s hr).1 hp] at h
        cases h
        rfl
  all_goals cases hc

/-- Settles O60: the checks of SET_RATE_TABLE guard the table while it is read, and no line begins discovery then. -/
theorem stepKeepsTheRateTable : Obligations.StepKeepsTheRateTable := by
  refine ⟨keptByEveryStep_of_moves (fun _ _ => holdingGuardsTable_core) (fun _ _ hr _ => holdingGuardsTable_reset hr)
      fun _ _ => move_holdingGuardsTable,
    keptByEveryStep_of_moves (fun s t hc h => ⟨?_, holdingGuardsTable_core hc h.2⟩)
      (fun s t hr _ => ⟨?_, holdingGuardsTable_reset hr⟩)
      fun _ _ m h => ⟨move_rateTableValid m h.2 h.1, move_holdingGuardsTable m h.2⟩,
    fun s t i j hg h hi hj => ?_⟩
  · unfold RateTableValid
    rw [hc.rateTable]
    exact h.1
  · have hempty : t.rateTable = [] := by rw [hr.1]; rfl
    simp [RateTableValid, hempty]
  · unfold step at h
    split at h
    next c rest _ =>
      cases hreset : Instr.resets c with
      | true =>
        rcases resets_or_stays hreset h with rfl | hr | rfl
        · rfl
        · rw [hr.line j] at hj
          cases hj
        · rfl
      | false =>
        cases hc : Instr.changesTable c with
        | true => exact rateTable_of_discovering (s := { s with pending := rest }) hg h hi hj hc
        | false =>
          by_cases ha : ∃ v, c = .setupAddrWrite v
          · obtain ⟨v, rfl⟩ := ha
            simp only [exec, execSetupAddrWrite, State.take] at h
            cases h
            repeat' split
            all_goals rfl
          · have hmoves := exec_moves hreset (fun v hv => ha ⟨v, hv⟩) h
            rw [hc] at hmoves
            exact hmoves.rateTable_eq
    · cases h
      rfl

end Sys2Proof.Machine
end

section
/-! PROOF. The transmitter of a line: the elementary effects that its happenings have on it, and the agreement of its fields
that each of them keeps (R80 to R96). -/

namespace Sys2Proof.Machine

variable {tbl : Bool} {s t : State} {i : LineNo} {l k : Line} {x y z : TxSide}

/-! ### The agreement of the transmitter's fields -/

/-- The characters of the current record that stand on the output. -/
def TxSide.onOutput (x : TxSide) : Nat :=
  match x.output with
  | .data _ => 1
  | _ => 0

theorem onOutput_of_data {bits : List Bool} (h : x.output = .data bits) : x.onOutput = 1 := by
  rw [TxSide.onOutput, h]

theorem onOutput_of_ne (h : ∀ bits, x.output ≠ .data bits) : x.onOutput = 0 := by
  unfold TxSide.onOutput
  split
  next bits ho => exact absurd ho (h bits)
  · rfl

theorem onOutput_le (x : TxSide) : x.onOutput ≤ 1 := by
  unfold TxSide.onOutput
  split <;> simp

/-- The fields of a transmitter agree, and the bytes of its record are accounted for. -/
structure TxSide.agrees (x : TxSide) : Prop where
  idle : x.st = .idle ↔ x.cur = none
  slot : x.cur ≠ none → x.slot = none
  brk : x.output = .brk ↔ x.st = .brk
  brkRead : x.st = .brk → x.readInFlight = none
  data : ∀ bits, x.output = .data bits → x.st = .sending
  ending : x.ending ≠ none → x.cur ≠ none ∧ (x.ending = some .aborted ∨ x.ending = some .busError)
  bytes : ∀ c, x.cur = some c → x.ending = none → c.bytesSent + x.fifo.length + x.onOutput ≤ c.bytesRead ∧
    c.bytesRead + x.readInFlight.getD 0 ≤ c.record.len
  flight : x.readInFlight ≠ some 0
  owned : x.readInFlight ≠ none → x.cur ≠ none ∨ x.slot ≠ none

/-- The two transmitters differ at most in the break timer and the fields of a flush. -/
def SameRecord (x y : TxSide) : Prop :=
  y = { x with
    breakTimer := y.breakTimer, flushBoundary := y.flushBoundary, flushPhase := y.flushPhase, flushDue := y.flushDue }

theorem SameRecord.refl (x : TxSide) : SameRecord x x := rfl

theorem SameRecord.trans (h : SameRecord x y) (h' : SameRecord y z) : SameRecord x z := by
  unfold SameRecord at *
  rw [h', h]

theorem SameRecord.agrees (h : SameRecord x y) (hx : x.agrees) : y.agrees := by
  rw [h]
  exact ⟨hx.idle, hx.slot, hx.brk, hx.brkRead, hx.data, hx.ending, hx.bytes, hx.flight, hx.owned⟩

theorem SameRecord.cur (h : SameRecord x y) : y.cur = x.cur := by rw [h]
theorem SameRecord.slot (h : SameRecord x y) : y.slot = x.slot := by rw [h]
theorem SameRecord.fifo (h : SameRecord x y) : y.fifo = x.fifo := by rw [h]
theorem SameRecord.readInFlight (h : SameRecord x y) : y.readInFlight = x.readInFlight := by rw [h]
theorem SameRecord.st (h : SameRecord x y) : y.st = x.st := by rw [h]
theorem SameRecord.output (h : SameRecord x y) : y.output = x.output := by rw [h]
theorem SameRecord.ending (h : SameRecord x y) : y.ending = x.ending := by rw [h]

/-! ### The elementary effects -/

/-- What a happening of a line can do to its record, its output and its slot. -/
inductive TxStep (x : TxSide) : TxSide → Prop
  | same : TxStep x x
  | ended (out : Output) (slot : Option Completion) : x.cur ≠ none → out ≠ .brk → (∀ bits, out ≠ .data bits) →
      x.readInFlight = none ∨ slot ≠ none →
      TxStep x { x with st := .idle, cur := none, ending := none, fifo := [], output := out, slot := slot }
  | toEnd (st : Status) : x.cur ≠ none → st = .aborted ∨ st = .busError →
      TxStep x { x with ending := some st, fifo := [] }
  | sentOn (bits : List Bool) (c : TxCurrent) : x.output = .data bits → x.cur = some c → x.ending = none →
      TxStep x { x with output := .mark, cur := some c.oneSent }
  | breakBegins (bits : List Bool) (c : TxCurrent) : x.output = .data bits → x.cur = some c → x.ending = none →
      c.oneSent.bytesSent = c.record.len → TxStep x { x with st := .brk, output := .brk, cur := some c.oneSent }
  | flowEnds (c : FlowChar) (bits : List Bool) : x.output = .flow c bits → TxStep x { x with output := .mark }
  | flowStarts (c : FlowChar) (bits : List Bool) : x.output = .mark → TxStep x { x with output := .flow c bits }
  | dataStarts (bits : List Bool) (v : Byte) (rest : List Byte) : x.output = .mark → x.st = .sending → x.fifo = v :: rest →
      TxStep x { x with output := .data bits, fifo := rest }

/-- The same, up to the break timer and the fields of a flush. -/
def TxEffect (x y : TxSide) : Prop := ∃ z, TxStep x z ∧ SameRecord z y

theorem TxStep.effect (h : TxStep x y) : TxEffect x y := ⟨y, h, .refl y⟩

theorem TxEffect.refl (x : TxSide) : TxEffect x x := TxStep.same.effect

theorem SameRecord.effect (h : SameRecord x y) : TxEffect x y := ⟨x, .same, h⟩

theorem TxEffect.of_eq (e : y = x) : TxEffect x y := e ▸ .refl x

theorem TxEffect.then (h : TxEffect x y) (h' : SameRecord y z) : TxEffect x z := by
  obtain ⟨w, hw, hy⟩ := h
  exact ⟨w, hw, hy.trans h'⟩

/-- The bytes of a record whose last character has been sent are all read, and none of them is in flight or in the FIFO. -/
theorem TxSide.agrees.allSent (h : x.agrees) {bits : List Bool} {c : TxCurrent} (ho : x.output = .data bits)
    (hc : x.cur = some c) (he : x.ending = none) (hlast : c.oneSent.bytesSent = c.record.len) :
    x.readInFlight = none ∧ x.fifo = [] := by
  obtain ⟨hread, hlen⟩ := h.bytes c hc he
  rw [onOutput_of_data ho] at hread
  have hsent : c.bytesSent + 1 = c.record.len := hlast
  refine ⟨?_, List.eq_nil_of_length_eq_zero (by omega)⟩
  cases hf : x.readInFlight with
  | none => rfl
  | some n =>
    rw [hf, Option.getD_some] at hlen
    have hn : n ≠ 0 := fun h0 => h.flight (by rw [hf, h0])
    omega

/-- Every elementary effect keeps the agreement. -/
theorem agrees_step (m : TxStep x y) (h : x.agrees) : y.agrees := by
  cases m with
  | same => exact h
  | ended out slot hcur hbrk hdata hslot =>
    refine ⟨by simp, by simp, by simpa using hbrk, by simp, fun bits ho => absurd ho (hdata bits), by simp, by simp,
      h.flight, fun hf => .inr ?_⟩
    rcases hslot with hslot | hslot
    · exact absurd hslot hf
    · exact hslot
  | toEnd st hcur hst =>
    exact ⟨h.idle, h.slot, h.brk, h.brkRead, h.data, fun _ => ⟨hcur, by simpa using hst⟩, by simp, h.flight, h.owned⟩
  | sentOn bits c ho hc he =>
    have hst := h.data bits ho
    have hslot := h.slot (by simp [hc])
    refine ⟨by simp [hst], fun _ => hslot, by simp [hst], by simp [hst], by simp, by simp [he], fun d hd _ => ?_, h.flight,
      fun _ => .inl (by simp)⟩
    obtain rfl := Option.some.inj hd
    obtain ⟨hread, hlen⟩ := h.bytes c hc he
    rw [onOutput_of_data ho] at hread
    refine ⟨?_, hlen⟩
    simp only [TxSide.onOutput, TxCurrent.oneSent]
    omega
  | breakBegins bits c ho hc he hlast =>
    obtain ⟨hflight, hfifo⟩ := h.allSent ho hc he hlast
    refine ⟨by simp, fun _ => h.slot (by simp [hc]), by simp, fun _ => hflight, by simp, by simp [he], fun d hd _ => ?_,
      h.flight, fun _ => .inl (by simp)⟩
    obtain rfl := Option.some.inj hd
    obtain ⟨hread, hlen⟩ := h.bytes c hc he
    rw [onOutput_of_data ho] at hread
    refine ⟨?_, hlen⟩
    simp only [TxSide.onOutput, TxCurrent.oneSent]
    omega
  | flowEnds c bits ho =>
    have hst : x.st ≠ .brk := fun hb => by simp [h.brk.2 hb] at ho
    have h0 := onOutput_of_ne (x := x) (by simp [ho])
    refine ⟨h.idle, h.slot, by simpa using hst, h.brkRead, by simp, h.ending, fun d hd he => ?_, h.flight, h.owned⟩
    obtain ⟨hread, hlen⟩ := h.bytes d hd he
    exact ⟨by simp only [TxSide.onOutput]; omega, hlen⟩
  | flowStarts c bits ho =>
    have hst : x.st ≠ .brk := fun hb => by simp [h.brk.2 hb] at ho
    have h0 := onOutput_of_ne (x := x) (by simp [ho])
    refine ⟨h.idle, h.slot, by simpa using hst, h.brkRead, by simp, h.ending, fun d hd he => ?_, h.flight, h.owned⟩
    obtain ⟨hread, hlen⟩ := h.bytes d hd he
    exact ⟨by simp only [TxSide.onOutput]; omega, hlen⟩
  | dataStarts bits v rest ho hst hf =>
    refine ⟨h.idle, h.slot, by simp [hst], h.brkRead, fun _ _ => hst, h.ending, fun d hd he => ?_, h.flight, h.owned⟩
    obtain ⟨hread, hlen⟩ := h.bytes d hd he
    rw [hf, List.length_cons] at hread
    refine ⟨?_, hlen⟩
    simp only [TxSide.onOutput]
    omega

theorem agrees_effect (m : TxEffect x y) (h : x.agrees) : y.agrees := by
  obtain ⟨z, hz, hy⟩ := m
  exact hy.agrees (agrees_step hz h)

/-- No happening but a data read's end changes the read in flight, lengthens the FIFO, or gives an idle transmitter a record
or a completion. -/
structure TxKeeps (x y : TxSide) : Prop where
  readInFlight : y.readInFlight = x.readInFlight
  fifo : y.fifo.length ≤ x.fifo.length
  cur : x.cur = none → y.cur = none
  slot : x.cur = none → y.slot = x.slot

theorem keeps_step (m : TxStep x y) : TxKeeps x y := by
  cases m with
  | same => exact ⟨rfl, le_rfl, id, fun _ => rfl⟩
  | ended out slot hcur _ _ _ => exact ⟨rfl, Nat.zero_le _, fun _ => rfl, fun h => absurd h hcur⟩
  | toEnd st hcur _ => exact ⟨rfl, Nat.zero_le _, id, fun _ => rfl⟩
  | sentOn bits c _ hc _ => exact ⟨rfl, le_rfl, fun h => by simp [h] at hc, fun _ => rfl⟩
  | breakBegins bits c _ hc _ _ => exact ⟨rfl, le_rfl, fun h => by simp [h] at hc, fun _ => rfl⟩
  | flowEnds _ _ _ => exact ⟨rfl, le_rfl, id, fun _ => rfl⟩
  | flowStarts _ _ _ => exact ⟨rfl, le_rfl, id, fun _ => rfl⟩
  | dataStarts bits v rest _ _ hf => exact ⟨rfl, by simp [hf], id, fun _ => rfl⟩

theorem TxEffect.keeps (m : TxEffect x y) : TxKeeps x y := by
  obtain ⟨z, hz, hy⟩ := m
  obtain ⟨hread, hfifo, hcur, hslot⟩ := keeps_step hz
  exact ⟨hy.readInFlight.trans hread, by rw [hy.fifo]; exact hfifo, fun h => hy.cur.trans (hcur h),
    fun h => hy.slot.trans (hslot h)⟩

/-! ### The operations of the transmitter -/

/-- A record ends, with the output at mark or on a flow character: with OK only when no read of it is in flight. -/
theorem endRecord_effect (l : Line) (i : LineNo) (time : Word) (st : Status) (hbrk : l.tx.output ≠ .brk)
    (hdata : ∀ bits, l.tx.output ≠ .data bits) (hok : st = .ok → l.tx.readInFlight = none) :
    TxEffect l.tx (l.endRecord i time st).tx := by
  unfold Line.endRecord
  split
  next c hc =>
    refine (TxStep.ended l.tx.output _ (by simp [hc]) hbrk hdata ?_).effect
    by_cases hst : st = .ok
    · exact .inl (hok hst)
    · exact .inr (by simp [hst])
  · exact .refl _

/-- A record ends as the character or the break on the output does. -/
theorem endRecord_mark_effect (l : Line) (i : LineNo) (time : Word) (st : Status) {c : TxCurrent} (k : Line)
    (hk : SameRecord { l.tx with output := .mark, cur := some c } k.tx) (hcur : l.tx.cur ≠ none)
    (hok : st = .ok → l.tx.readInFlight = none) : TxEffect l.tx (k.endRecord i time st).tx := by
  have hc : k.tx.cur = some c := hk.cur
  have heq : ∃ slot, (l.tx.readInFlight = none ∨ slot ≠ none) ∧ (k.endRecord i time st).tx =
      { k.tx with st := .idle, cur := none, ending := none, fifo := [], slot := slot } := by
    unfold Line.endRecord
    rw [hc]
    refine ⟨_, ?_, rfl⟩
    by_cases hst : st = .ok
    · exact .inl (hok hst)
    · exact .inr (by simp [hst])
  obtain ⟨slot, hslot, heq⟩ := heq
  refine ⟨_, .ended .mark slot hcur (by simp) (by simp) hslot, ?_⟩
  rw [heq, hk]
  rfl

/-- A break on the output ends at once with its record (R89). -/
theorem stopBreak_endRecord_effect (l : Line) (i : LineNo) (time : Word) (st : Status) (hcur : l.tx.cur ≠ none)
    (hok : st = .ok → l.tx.readInFlight = none) : TxEffect l.tx (l.stopBreak.endRecord i time st).tx := by
  obtain ⟨c, hc⟩ := Option.ne_none_iff_exists'.1 hcur
  exact endRecord_mark_effect l i time st (c := c) l.stopBreak (by rw [← hc]; rfl) hcur hok

theorem endingStatus_cases {first : Option Status} {st : Status} (time : Word)
    (hf : first = none ∨ first = some .aborted ∨ first = some .busError) (hst : st = .aborted ∨ st = .busError) :
    endingStatus i time first st = .aborted ∨ endingStatus i time first st = .busError := by
  unfold endingStatus
  rcases hf with rfl | rfl | rfl
  · exact hst
  · dsimp only
    split_ifs
    · exact .inl rfl
    · exact hst
    · exact .inl rfl
  · dsimp only
    split_ifs
    · exact .inr rfl
    · exact hst
    · exact .inr rfl

/-- A record is to end once the character on the output has been sent. -/
theorem endAfterOutput_effect (h : l.tx.agrees) (time : Word) (st : Status) (hcur : l.tx.cur ≠ none)
    (hst : st = .aborted ∨ st = .busError) : TxEffect l.tx (l.endAfterOutput i time st).tx := by
  have hf : l.tx.ending = none ∨ l.tx.ending = some .aborted ∨ l.tx.ending = some .busError := by
    by_cases he : l.tx.ending = none
    · exact .inl he
    · exact .inr (h.ending he).2
  exact (TxStep.toEnd _ hcur (endingStatus_cases (i := i) time hf hst)).effect

theorem abortCurrent_effect (h : l.tx.agrees) (time : Word) : TxEffect l.tx (l.abortCurrent i time).tx := by
  unfold Line.abortCurrent
  split
  · exact .refl _
  next c hc =>
    have hcur : l.tx.cur ≠ none := by simp [hc]
    split
    · exact endAfterOutput_effect h time _ hcur (.inl rfl)
    · exact endAfterOutput_effect h time _ hcur (.inl rfl)
    · exact stopBreak_endRecord_effect l i time _ hcur (by simp)
    next ho => exact endRecord_effect l i time _ (by simp [ho]) (by simp [ho]) (by simp)

theorem flushCurrent_effect (h : l.tx.agrees) (time : Word) : TxEffect l.tx (l.flushCurrent i time).tx := by
  unfold Line.flushCurrent
  split
  · exact .refl _
  next c hc =>
    have hcur : l.tx.cur ≠ none := by simp [hc]
    split
    · exact endAfterOutput_effect h time _ hcur (.inl rfl)
    · exact stopBreak_endRecord_effect l i time _ hcur (by simp)
    next hdata hbrk => exact endRecord_effect l i time _ hbrk hdata (by simp)

theorem dataSent_effect (h : l.tx.agrees) (time : Word) {bits : List Bool} (ho : l.tx.output = .data bits) :
    TxEffect l.tx (l.dataSent i time).tx := by
  have hst := h.data bits ho
  have hcur : l.tx.cur ≠ none := fun hc => by simp [h.idle.2 hc] at hst
  obtain ⟨c, hc⟩ := Option.ne_none_iff_exists'.1 hcur
  unfold Line.dataSent
  simp only [hc, Option.map_some]
  split
  next e st he =>
    have hstatus := (h.ending (by simp [he])).2
    refine endRecord_mark_effect l i time st (c := c.oneSent) _ rfl hcur fun hok => ?_
    simp [he, hok] at hstatus
  next e d he hd =>
    obtain rfl := Option.some.inj hd
    split
    next hlast =>
      split
      · exact (TxStep.breakBegins bits c ho hc he hlast).effect.then rfl
      · exact endRecord_mark_effect l i time .ok (c := c.oneSent) _ rfl hcur fun _ => (h.allSent ho hc he hlast).1
    · exact (TxStep.sentOn bits c ho hc he).effect
  next hn => cases hn

theorem flowSent_effect (h : l.tx.agrees) (time : Word) {c : FlowChar} {bits : List Bool}
    (ho : l.tx.output = .flow c bits) : TxEffect l.tx (l.flowSent i time).tx := by
  unfold Line.flowSent
  dsimp only
  split
  next st he =>
    obtain ⟨hcur, hstatus⟩ := h.ending (by simp [he])
    obtain ⟨d, hd⟩ := Option.ne_none_iff_exists'.1 hcur
    refine endRecord_mark_effect l i time st (c := d) _ (by rw [← hd]; rfl) hcur fun hok => ?_
    simp [he, hok] at hstatus
  · exact (TxStep.flowEnds c bits ho).effect

theorem startData_effect (l : Line) (ho : l.tx.output = .mark) (hmay : l.dataMayStart = true) :
    TxEffect l.tx l.startData.tx := by
  unfold Line.startData
  split
  next v rest hf => exact (TxStep.dataStarts _ v rest ho ((dataMayStart_iff l).1 hmay).1 hf).effect
  · exact .refl _

theorem chooseOutput_effect (l : Line) : TxEffect l.tx l.chooseOutput.tx := by
  unfold Line.chooseOutput
  split
  next ho =>
    split
    next c _ =>
      split
      · exact (TxStep.flowStarts c _ ho).effect
      · split
        next hmay => exact startData_effect l ho hmay
        · exact .refl _
    · split
      next hmay => exact startData_effect l ho hmay
      · exact .refl _
  · exact .refl _

/-- The fields of a flush and the break timer are nothing to the elementary effects. -/
theorem SameRecord.step (h : SameRecord x y) (m : TxStep y z) : TxEffect x z := by
  cases m with
  | same => exact h.effect
  | ended out slot hcur hbrk hdata hslot =>
    exact ⟨_, .ended out slot (h.cur ▸ hcur) hbrk hdata (h.readInFlight ▸ hslot), by rw [h]; rfl⟩
  | toEnd st hcur hst => exact ⟨_, .toEnd st (h.cur ▸ hcur) hst, by rw [h]; rfl⟩
  | sentOn bits c ho hc he => exact ⟨_, .sentOn bits c (h.output ▸ ho) (h.cur ▸ hc) (h.ending ▸ he), by rw [h]; rfl⟩
  | breakBegins bits c ho hc he hlast =>
    exact ⟨_, .breakBegins bits c (h.output ▸ ho) (h.cur ▸ hc) (h.ending ▸ he) hlast, by rw [h]; rfl⟩
  | flowEnds c bits ho => exact ⟨_, .flowEnds c bits (h.output ▸ ho), by rw [h]; rfl⟩
  | flowStarts c bits ho => exact ⟨_, .flowStarts c bits (h.output ▸ ho), by rw [h]; rfl⟩
  | dataStarts bits v rest ho hst hf =>
    exact ⟨_, .dataStarts bits v rest (h.output ▸ ho) (h.st ▸ hst) (h.fifo ▸ hf), by rw [h]; rfl⟩

theorem SameRecord.trans_effect (h : SameRecord x y) (m : TxEffect y z) : TxEffect x z := by
  obtain ⟨w, hw, hz⟩ := m
  exact (h.step hw).then hz

/-- The aborts of a close leave the record to `Line.abortCurrent`. -/
theorem abort_effect (h : l.tx.agrees) (time : Word) : TxEffect l.tx (l.abort i time).tx := by
  have hcleared : SameRecord l.tx l.abortRest.tx := rfl
  rw [abort_eq]
  exact hcleared.trans_effect (abortCurrent_effect (hcleared.agrees h) time)

/-! ### Which lines hold a record -/

/-- The line may hold a record: in OPEN, in a drain whose transmit side is not done, and before its aborts are carried
out (R6, R80, R96). -/
def Line.mayHold (l : Line) : Prop :=
  l.state = .opened ∨ (l.draining = true ∧ l.close.txDone = false) ∨
    (l.state = .closing ∧ l.close.phase = some .aborting)

/-- A line that holds a record may hold one. -/
def Line.holds (l : Line) : Prop := l.tx.cur ≠ none → l.mayHold

theorem mayHold_of_eq (hs : k.state = l.state) (hc : k.close = l.close) (h : l.mayHold) : k.mayHold := by
  unfold Line.mayHold Line.draining at *
  rw [hs, hc]
  exact h

theorem Line.holds.cur_none (h : l.holds) (hs : l.state = .seek ∨ l.state = .trial) : l.tx.cur = none := by
  by_contra hc
  rcases h hc with ho | ⟨hd, _⟩ | ⟨ho, _⟩
  · rcases hs with hs | hs <;> rw [hs] at ho <;> cases ho
  · have ho := (of_decide_eq_true hd).1
    rcases hs with hs | hs <;> rw [hs] at ho <;> cases ho
  · rcases hs with hs | hs <;> rw [hs] at ho <;> cases ho

/-- What a happening of a line does to its transmitter: an elementary effect, after which the line may still hold its
record; and no line becomes CLOSED by it. -/
structure TxMove (l k : Line) : Prop where
  effect : TxEffect l.tx k.tx
  holds : l.holds → k.holds
  closed : k.state = .closed → l.state = .closed

theorem TxMove.of_frame (h : TxEffect l.tx k.tx) (hs : k.state = l.state) (hc : k.close = l.close) : TxMove l k where
  effect := h
  holds hl hk := mayHold_of_eq hs hc (hl fun hn => hk (h.keeps.cur hn))
  closed e := hs.symm.trans e

theorem TxMove.of_tx (h : k.tx = l.tx) (hs : k.state = l.state) (hc : k.close = l.close) : TxMove l k :=
  .of_frame (.of_eq h) hs hc

theorem OnlyRx.txMove (h : OnlyRx l k) : TxMove l k := .of_tx h.tx h.state h.close

theorem OnlyFlow.txMove (h : OnlyFlow l k) : TxMove l k := .of_tx h.tx h.state h.close

theorem OnlyTx.txMove (h : OnlyTx l k) (he : TxEffect l.tx k.tx) : TxMove l k := .of_frame he h.state h.close

/-- A line in SEEK or TRIAL holds no record, whatever state it takes but CLOSED. -/
theorem TxMove.of_discovering (hd : l.state = .seek ∨ l.state = .trial) (h : TxEffect l.tx k.tx)
    (hk : k.state ≠ .closed) : TxMove l k where
  effect := h
  holds hl hc := absurd (h.keeps.cur (hl.cur_none hd)) hc
  closed e := absurd e hk

/-- After a happening that leaves the transmitter alone comes another. -/
theorem TxMove.comp (ht : k.tx = l.tx) (hs : k.state = l.state) (hc : k.close = l.close) {m : Line} (h : TxMove k m) :
    TxMove l m where
  effect := ht ▸ h.effect
  holds hl := h.holds fun hk => mayHold_of_eq hs hc (hl (ht ▸ hk))
  closed e := hs.symm.trans (h.closed e)

theorem OnlyRx.comp_txMove (h : OnlyRx l k) {m : Line} (h' : TxMove k m) : TxMove l m := h'.comp h.tx h.state h.close

theorem OnlyFlow.comp_txMove (h : OnlyFlow l k) {m : Line} (h' : TxMove k m) : TxMove l m := h'.comp h.tx h.state h.close

theorem flowRise_txMove (ht : k.tx = l.tx) (hs : k.state = l.state) (hc : k.close = l.close) : TxMove l k.flowRise :=
  (flowRise_onlyFlow k).txMove.comp ht hs hc

theorem flowFall_txMove (ht : k.tx = l.tx) (hs : k.state = l.state) (hc : k.close = l.close) : TxMove l k.flowFall :=
  (flowFall_onlyFlow k).txMove.comp ht hs hc

theorem join_txMove (ht : k.tx = l.tx) (hs : k.state = l.state) (hc : k.close = l.close) (e : Bool → FifoEntry) :
    TxMove l (k.join e) := flowRise_txMove (k := { k with rx := _ }) ht hs hc

theorem joinChar_txMove (ht : k.tx = l.tx) (hs : k.state = l.state) (hc : k.close = l.close) (v : Byte) (pe fe : Bool) :
    TxMove l (k.joinChar v pe fe) := by
  unfold Line.joinChar
  exact flowRise_txMove ht hs hc

theorem appendEvent_txMove (l : Line) (c : Completion) : TxMove l (l.appendEvent c) := by
  obtain ⟨hs, _, htx, _, _, _, hc, _⟩ := appendEvent_keeps l c
  exact .of_tx htx hs hc

/-! ### The happenings -/

/-- An abort leaves a CLOSING line whose aborts are to be carried out. -/
theorem abort_txMove (h : l.tx.agrees) (time : Word) (ht : k.tx = l.tx) (hk : k.state = .closing) :
    TxMove l (k.abort i time) where
  effect := ht ▸ abort_effect (l := k) (ht ▸ h) time
  holds _ _ := by
    refine .inr (.inr ⟨(abort_state k i time).trans hk, ?_⟩)
    rw [abort_eq, (abortCurrent_onlyTx _ i time).close]
    rfl
  closed e := by
    rw [abort_state, hk] at e
    cases e

theorem failDiscovery_txMove (h : l.tx.agrees) (time : Word) (r : FailReason) (ht : k.tx = l.tx) :
    TxMove l (k.failDiscovery i time r) := abort_txMove (l := l) h time ht rfl

theorem failAttempt_txMove (h : l.tx.agrees) (time : Word) (hd : l.state = .seek ∨ l.state = .trial) (ht : k.tx = l.tx) :
    TxMove l (k.failAttempt i time) := by
  unfold Line.failAttempt
  dsimp only
  split
  · exact failDiscovery_txMove h time _ ht
  · exact .of_discovering hd (.of_eq ht) (by simp)

theorem succeed_tx (l : Line) (i : LineNo) (time : Word) (t : List RateEntry) (v w : Byte) :
    (l.succeed i time t v w).tx = l.tx := by
  unfold Line.succeed
  dsimp only
  rw [(appendEvent_keeps _ _).2.2.1]
  split
  · rw [Line.keepTrialPair, (gapRestart_onlyRx _).tx]
    exact (flowRise_onlyFlow _).tx.trans (flowRise_onlyFlow _).tx
  · rfl

theorem trialChar_txMove (h : l.tx.agrees) (time : Word) (t : List RateEntry) (c : Received) (hd : l.state = .trial) :
    TxMove l (l.trialChar i time t c) := by
  unfold Line.trialChar
  dsimp only
  repeat' split
  · exact failAttempt_txMove h time (.inr hd) rfl
  · exact .of_tx rfl rfl rfl
  · exact failAttempt_txMove h time (.inr hd) rfl
  · exact .of_discovering (.inr hd) (.of_eq (succeed_tx _ _ _ _ _ _)) (by simp [succeed_state])

theorem evaluateWindow_txMove (h : l.tx.agrees) (time : Word) (t : List RateEntry) (hd : l.state = .seek)
    (ht : k.tx = l.tx) : TxMove l (k.evaluateWindow i time t) := by
  unfold Line.evaluateWindow
  split
  · exact .of_discovering (.inl hd) (.of_eq ht) (by simp)
  · exact failAttempt_txMove h time (.inl hd) ht

theorem takeInterval_txMove (h : l.tx.agrees) (time : Word) (t : List RateEntry) (n : Nat) (hd : l.state = .seek) :
    TxMove l (l.takeInterval i time t n) := by
  rw [takeInterval_eq]
  split_ifs
  · exact .of_tx rfl rfl rfl
  · exact evaluateWindow_txMove h time t hd rfl
  · exact .of_tx rfl rfl rfl

theorem modify_txMove (l : Line) (r : List Byte) : TxMove l (l.modify r) := by
  unfold Line.modify
  dsimp only
  split
  · exact flowRise_txMove rfl rfl rfl
  · exact flowFall_txMove rfl rfl rfl

theorem openWith_txMove (l : Line) (r : List Byte) (hs : l.state = .closed) : TxMove l (l.openWith r) := by
  have htx : (l.openWith r).tx = l.tx := by
    unfold Line.openWith Line.enterSeek
    dsimp only
    split <;> rfl
  refine ⟨.of_eq htx, fun hl hc => ?_, fun e => hs⟩
  rw [htx] at hc
  rcases hl hc with ho | ⟨hd, _⟩ | ⟨ho, _⟩
  · rw [hs] at ho; cases ho
  · have ho := (of_decide_eq_true hd).1
    rw [hs] at ho; cases ho
  · rw [hs] at ho; cases ho

theorem flushRx_txMove (l : Line) (time : Word) : TxMove l (l.flushRx i time) := by
  unfold Line.flushRx
  dsimp only
  split
  · split
    · exact .of_tx rfl rfl rfl
    · exact .of_tx rfl rfl rfl
  · split
    · have hk := (releaseHold_onlyRx l.discardFifo).trans (closeBuffer_onlyRx _ i time .flushed none)
      exact flowFall_txMove hk.tx hk.state hk.close
    · exact flowFall_txMove rfl rfl rfl

/-- Of the transmitter, a REDISCOVER changes what the choice of the next output does. -/
theorem rediscover_effect (l : Line) (time : Word) : TxEffect l.tx (l.rediscover i time).tx := by
  have hrest : ∃ k : Line, k.tx = l.tx ∧ (l.rediscover i time).tx = k.chooseOutput.tx :=
    ⟨_, (flowFall_onlyFlow _).tx.trans
      (closeBuffer_onlyRx { l.discardFifo with rx := { l.discardFifo.rx with hold := [] } } i time .rateChange none).tx,
      rfl⟩
  obtain ⟨k, hk, htx⟩ := hrest
  rw [htx, ← hk]
  exact chooseOutput_effect k

/-- A REDISCOVER is taken with no record current. -/
theorem rediscover_txMove (l : Line) (time : Word) (hcur : l.tx.cur = none) : TxMove l (l.rediscover i time) :=
  ⟨rediscover_effect l time, fun _ hc => absurd ((rediscover_effect l time).keeps.cur hcur) hc, fun e => by cases e⟩

/-- A REDISCOVER that passes its checks finds the transmitter idle (R125). -/
theorem rediscoverChecks_idle {t : List RateEntry} (h : firstFailure (rediscoverChecks l t) = none) :
    l.tx.st = .idle := by
  simp only [firstFailure, rediscoverChecks, Option.map_eq_none_iff, List.find?_eq_none, List.mem_cons,
    forall_eq_or_imp, Bool.not_eq_true', Bool.not_eq_false'] at h
  simpa using h.1

theorem openChar_txMove (l : Line) (c : Received) : TxMove l (l.openChar c) := by
  have hk := gapRestart_onlyRx l
  unfold Line.openChar
  dsimp only
  repeat' split
  · exact hk.comp_txMove (peerFlow_onlyFlow _ _).txMove
  · exact hk.comp_txMove (.of_tx rfl rfl rfl)
  · exact joinChar_txMove hk.tx hk.state hk.close _ _ _

theorem openBreak_txMove (l : Line) : TxMove l l.openBreak := by
  unfold Line.openBreak
  dsimp only
  split
  · exact .of_tx rfl rfl rfl
  · exact flowRise_txMove rfl rfl rfl

theorem gapExpire_txMove (l : Line) : TxMove l l.gapExpire := by
  unfold Line.gapExpire
  dsimp only
  split
  · exact flowRise_txMove rfl rfl rfl
  · exact .of_tx rfl rfl rfl

theorem takeMarker_txMove (l : Line) (gap : Bool) (i : LineNo) (time : Word) (loss : Bool) :
    TxMove l (l.takeMarker gap i time loss) := by
  have hclose (reason : RxReason) := (releaseHold_onlyRx l).trans
    ((noteLoss_onlyRx l.releaseHold loss).trans (closeBuffer_onlyRx _ i time reason none))
  unfold Line.takeMarker Line.takeGap Line.takeBreak
  dsimp only
  repeat' split
  · exact .of_tx (hclose .gap).tx (hclose .gap).state (hclose .gap).close
  · exact (carryLoss_onlyRx l loss).txMove
  · exact (hclose .brk).txMove
  · have hk := carryLoss_onlyRx (l.appendEvent (l.event time (.breakIdle i))) loss
    obtain ⟨hs, _, htx, _, _, _, hc, _⟩ := appendEvent_keeps l (l.event time (.breakIdle i))
    exact .of_tx (hk.tx.trans htx) (hk.state.trans hs) (hk.close.trans hc)

theorem takeClose_txMove (h : l.tx.agrees) (time : Word) (m : CloseMode) (tag : Half) (limit n : Nat)
    (hs : inSession l.state = true) : TxMove l (l.takeClose i time m tag limit n) := by
  unfold Line.takeClose
  cases m with
  | immediate => exact abort_txMove h time rfl rfl
  | graceful =>
    refine ⟨.refl _, fun hl hc => ?_, fun e => by cases e⟩
    have hopen : l.state = .opened := by
      rcases hl hc with ho | ⟨hd, _⟩ | ⟨ho, _⟩
      · exact ho
      · rw [draining_state hd] at hs; cases hs
      · rw [ho] at hs; cases hs
    exact .inr (.inl ⟨by simp [Line.draining], by simp [hopen]⟩)

theorem overtake_txMove (h : l.tx.agrees) (time : Word) (g tag : Half) : TxMove l (l.overtake i time g tag) := by
  unfold Line.overtake
  dsimp only
  split
  next hd => exact abort_txMove h time rfl (draining_state hd)
  · refine ⟨.refl _, fun hl hc => ?_, id⟩
    rcases hl hc with ho | ⟨hd, htx⟩ | ⟨ho, hp⟩
    · exact .inl ho
    · exact .inr (.inl ⟨hd, htx⟩)
    · exact .inr (.inr ⟨ho, hp⟩)

theorem stopLine_txMove (h : l.tx.agrees) (time : Word) : TxMove l (l.stopLine i time) := by
  unfold Line.stopLine
  split
  · exact .of_tx rfl rfl rfl
  · split
    next hd => exact abort_txMove h time rfl (draining_state hd)
    · exact .of_tx rfl rfl rfl
  · exact abort_txMove h time rfl rfl

theorem dataSent_close (l : Line) (i : LineNo) (time : Word) : (l.dataSent i time).close = l.close := by
  unfold Line.dataSent
  dsimp only
  repeat' split
  · exact (endRecord_onlyTx _ i time _).close
  · rfl
  · exact (endRecord_onlyTx _ i time _).close
  · rfl
  · rfl

/-- Every happening that a line settles at once does one of the elementary effects. -/
theorem lineMove_txMove (m : LineMove s i l) (h : (s.line i).tx.agrees) : TxMove (s.line i) l := by
  have hpop : TxMove (s.line i) (s.line i).popFifo.flowFall := flowFall_txMove rfl rfl rfl
  cases m with
  | settle => exact .of_tx rfl rfl rfl
  | openLine r _ hs _ => exact openWith_txMove _ r hs
  | modify r _ => exact modify_txMove _ r
  | setDelims r _ _ => exact (setDelims_onlyRx _ r).txMove
  | rediscover _ _ hp => exact rediscover_txMove _ _ (h.idle.1 (rediscoverChecks_idle hp))
  | takeFlush tag n _ =>
    have hstarted : SameRecord (s.line i).tx { (s.line i).tx with
      flushBoundary := some n, flushPhase := some .ending, flushDue := none } := rfl
    have heffect := flushCurrent_effect (i := i) (l := { s.line i with
      long := .flushTx tag
      tx := { (s.line i).tx with flushBoundary := some n, flushPhase := some .ending, flushDue := none } })
      (hstarted.agrees h) s.time
    exact .of_frame (hstarted.trans_effect heffect) (takeFlush_state _ i _ tag n) (flushCurrent_onlyTx _ i _).close
  | flushRx _ => exact flushRx_txMove _ _
  | takeClose m tag lim n hs => exact takeClose_txMove h _ m tag lim n hs
  | overtake g tag _ => exact overtake_txMove h _ g tag
  | openChar c _ => refine TxMove.comp ?_ ?_ ?_ (openChar_txMove _ c) <;> rfl
  | trialChar c hs => exact trialChar_txMove h _ _ c hs
  | openBreak _ => exact openBreak_txMove _
  | failAttempt hs => exact failAttempt_txMove h _ (.inr hs) rfl
  | takeInterval n hs => exact takeInterval_txMove h _ _ n hs
  | gapExpire _ => exact gapExpire_txMove _
  | failDiscovery r _ => exact failDiscovery_txMove h _ r rfl
  | takeChar v pe fe loss _ _ =>
    have hk := takeChar_onlyRx (s.line i).popFifo.flowFall i s.time v pe fe loss
    have hf := flowFall_onlyFlow (s.line i).popFifo
    exact .of_tx (hk.tx.trans hf.tx) (hk.state.trans hf.state) (hk.close.trans hf.close)
  | takeMarker gap loss _ =>
    have hf := flowFall_onlyFlow (s.line i).popFifo
    exact TxMove.comp (l := s.line i) hf.tx hf.state hf.close (takeMarker_txMove _ gap i s.time loss)
  | answerBuffer _ _ => exact (answerBuffer_onlyRx _ _ _).txMove
  | takeChunk n ok _ => exact (takeChunk_onlyRx _ _ _ _ _).txMove
  | dataSent bits ho => exact .of_frame (dataSent_effect h _ ho) (dataSent_state _ i _) (dataSent_close _ i _)
  | flowSent c bits ho => exact (flowSent_onlyTx _ i _).txMove (flowSent_effect h _ ho)
  | endBreak hst =>
    have hcur : (s.line i).tx.cur ≠ none := fun hc => by simp [h.idle.2 hc] at hst
    have hk := endRecord_onlyTx (s.line i).stopBreak i s.time .ok
    exact .of_frame (stopBreak_endRecord_effect _ i _ .ok hcur fun _ => h.brkRead hst) hk.state hk.close
  | pauseExpire _ => refine TxMove.comp ?_ ?_ ?_ (appendEvent_txMove _ _) <;> rfl
  | cutDrain hd => exact abort_txMove h _ rfl (draining_state hd)
  | event c => exact appendEvent_txMove _ c

end Sys2Proof.Machine
end

section
/-! PROOF. What settling, the records and the data reads do to a line's transmitter, and the reads that the Memory Engine
has for it (R79 to R83). -/

namespace Sys2Proof.Machine

variable {tbl : Bool} {s t : State} {i j : LineNo} {l k : Line} {x y : TxSide}

/-! ### Settling -/

theorem flushStep_sameRecord (l : Line) (i : LineNo) (time : Word) (q : ReqQueue) :
    SameRecord l.tx (l.flushStep i time q).tx := by
  rw [flushStep_eq_steps]
  unfold SameRecord Line.flushAnswered Line.flushEnded Line.flushFetching
  repeat' split
  all_goals rfl

theorem settled_sameRecord (l : Line) (i : LineNo) (time : Word) (q : ReqQueue) :
    SameRecord l.chunkIssued.chooseOutput.readRequested.tx (l.settled i time q).tx := by
  have hbefore : (((l.chunkIssued.chooseOutput.readRequested).beginWindUp.markTxDone q).endDrain).tx =
      l.chunkIssued.chooseOutput.readRequested.tx := by
    rw [endDrain_eq, markTxDone_eq, beginWindUp_eq]
  rw [← hbefore]
  exact flushStep_sameRecord _ i time q

/-- A line that settles requests no read, or the one of its current record that is due. -/
theorem settled_read (l : Line) (i : LineNo) :
    (l.readRequests i = [] ∧ l.chunkIssued.chooseOutput.readRequested.tx = l.chooseOutput.tx) ∨
    ∃ c n addr, l.chooseOutput.tx.cur = some c ∧ l.chooseOutput.tx.st = .sending ∧ l.tx.readInFlight = none ∧
      l.chooseOutput.tx.readInFlight = none ∧ l.chooseOutput.tx.fifo.length ≤ 16 ∧ c.bytesRead < c.record.len ∧
      n = min 16 (c.record.len - c.bytesRead) ∧
      l.readRequests i = [{ requester := .dataRead i, addr := addr, transfer := .read n }] ∧
      l.chunkIssued.chooseOutput.readRequested.tx = { l.chooseOutput.tx with readInFlight := some n } := by
  have htx := chunkIssued_chooseOutput_tx l
  have hkeeps := (chooseOutput_keeps l)
  have hread : l.chooseOutput.tx.readInFlight = l.tx.readInFlight := (chooseOutput_effect l).keeps.readInFlight
  unfold Line.readRequests
  rw [readRequested_eq, htx, hkeeps.cur]
  cases hc : l.tx.cur with
  | none => exact .inl ⟨rfl, htx⟩
  | some c =>
    simp only [hkeeps.st, hkeeps.ending, hread]
    by_cases hdue : l.tx.st = .sending ∧ l.tx.ending = none ∧ l.tx.readInFlight = none ∧
        l.chooseOutput.tx.fifo.length ≤ 16 ∧ c.bytesRead < c.record.len
    · rw [if_pos hdue, if_pos hdue]
      obtain ⟨hst, _, hnone, hfifo, hlen⟩ := hdue
      exact .inr ⟨c, _, _, rfl, hst, hnone, hnone, hfifo, hlen, rfl, rfl, rfl⟩
    · rw [if_neg hdue, if_neg hdue]
      exact .inl ⟨rfl, htx⟩

/-- A due read belongs to the current record and lies within it. -/
theorem agrees_readRequested {c : TxCurrent} (h : x.agrees) (hc : x.cur = some c) (hst : x.st = .sending)
    (hlen : c.bytesRead < c.record.len) :
    TxSide.agrees { x with readInFlight := some (min 16 (c.record.len - c.bytesRead)) } := by
  refine ⟨h.idle, h.slot, h.brk, fun hb => ?_, h.data, h.ending, fun d hd he => ?_, ?_, fun _ => .inl (by simp [hc])⟩
  · rw [hst] at hb
    cases hb
  · obtain ⟨hread, _⟩ := h.bytes d hd he
    obtain rfl := Option.some.inj (hc.symm.trans hd)
    refine ⟨hread, ?_⟩
    simp only [Option.getD_some]
    omega
  · simp only [ne_eq, Option.some.injEq]
    omega

theorem agrees_settled (h : l.tx.agrees) (time : Word) (q : ReqQueue) : (l.settled i time q).tx.agrees := by
  have hchosen := agrees_effect (chooseOutput_effect l) h
  refine (settled_sameRecord l i time q).agrees ?_
  rcases settled_read l i with ⟨_, e⟩ | ⟨c, n, addr, hc, hst, _, _, _, hlen, rfl, _, e⟩
  · rw [e]; exact hchosen
  · rw [e]; exact agrees_readRequested hchosen hc hst hlen

/-- While it holds a record, settling leaves the line's close as it is. -/
theorem settled_holds (h : l.holds) (time : Word) (q : ReqQueue) : (l.settled i time q).holds := by
  intro hcur
  have hkeeps := settled_keeps l i time q
  have hhold : l.mayHold := h (hkeeps.cur ▸ hcur)
  have hcur' : l.tx.cur ≠ none := hkeeps.cur ▸ hcur
  let a := l.chunkIssued.chooseOutput.readRequested
  have ha : SettleKeeps l a := ((chunkIssued_keeps l).trans (chooseOutput_keeps _)).trans (readRequested_keeps _)
  have haclose : a.close = l.close :=
    (readRequested_onlyTx _).close.trans ((congrArg Line.close (chooseOutput_eq _)).trans (chunkIssued_onlyRx l).close)
  have hacur : a.tx.cur ≠ none := ha.cur ▸ hcur'
  have hahold : a.mayHold := mayHold_of_eq ha.state haclose hhold
  have hwind : a.beginWindUp = a := if_neg fun hc => hacur hc.2.2.2
  have hmark : a.markTxDone q = a := if_neg fun hc => hacur hc.2.2.1
  have hdrain : a.endDrain = a := by
    refine if_neg fun hc => ?_
    obtain ⟨hd, _, hdone, _⟩ := hc
    obtain ⟨hstate, hphase⟩ := (draining_iff a).1 hd
    rcases hahold with ho | ⟨_, hnot⟩ | ⟨_, habort⟩
    · rw [hstate] at ho; cases ho
    · rw [hdone] at hnot; cases hnot
    · rw [hphase] at habort; cases habort
  have hsettled : l.settled i time q = a.flushStep i time q := by
    show ((a.beginWindUp.markTxDone q).endDrain).flushStep i time q = _
    rw [hwind, hmark, hdrain]
  have hclose : (a.flushStep i time q).close = a.close := by
    rw [flushStep_eq_steps]
    unfold Line.flushAnswered Line.flushEnded Line.flushFetching
    repeat' split
    all_goals rfl
  rw [hsettled]
  exact mayHold_of_eq (flushStep_keeps a i time q).state hclose hahold

/-! ### The transmitter of one line -/

/-- The transmitter of a line agrees, the line may hold the record it holds, and CLOSED it has no read in flight. -/
structure Line.txFits (l : Line) : Prop where
  agrees : l.tx.agrees
  holds : l.holds
  closed : l.state = .closed → l.tx.readInFlight = none

theorem TxMove.fits (m : TxMove l k) (h : l.txFits) : k.txFits where
  agrees := agrees_effect m.effect h.agrees
  holds := m.holds h.holds
  closed e := m.effect.keeps.readInFlight.trans (h.closed (m.closed e))

theorem txFits_settled (h : l.txFits) (time : Word) (q : ReqQueue) : (l.settled i time q).txFits where
  agrees := agrees_settled h.agrees time q
  holds := settled_holds h.holds time q
  closed e := by
    have hs : l.state = .closed := (settled_keeps l i time q).state.symm.trans e
    rw [(settled_sameRecord l i time q).readInFlight]
    have hnone : l.chooseOutput.tx.readInFlight = none :=
      (chooseOutput_effect l).keeps.readInFlight.trans (h.closed hs)
    rcases settled_read l i with ⟨_, e⟩ | ⟨c, n, addr, hc, _, _, _, _, _, _, _, _⟩
    · rw [e]; exact hnone
    · exfalso
      have hcur : l.tx.cur ≠ none := fun h0 => by simp [(chooseOutput_effect l).keeps.cur h0] at hc
      rcases h.holds hcur with ho | ⟨hd, _⟩ | ⟨ho, _⟩
      · rw [hs] at ho; cases ho
      · rw [draining_state hd] at hs; cases hs
      · rw [hs] at ho; cases ho

/-! ### Records and data reads -/

theorem agrees_dropRead (h : x.agrees) : TxSide.agrees { x with readInFlight := none } := by
  refine ⟨h.idle, h.slot, h.brk, fun _ => rfl, h.data, h.ending, fun c hc he => ?_, by simp, fun hn => absurd rfl hn⟩
  obtain ⟨hread, hlen⟩ := h.bytes c hc he
  exact ⟨hread, by simp only [Option.getD_none]; omega⟩

theorem agrees_joinRead {c : TxCurrent} {n : Nat} {bs : List Byte} (h : x.agrees) (hc : x.cur = some c)
    (hf : x.readInFlight = some n) (hn : bs.length = n) : TxSide.agrees { x with
      readInFlight := none, fifo := x.fifo ++ bs, cur := some { c with bytesRead := c.bytesRead + bs.length } } := by
  refine ⟨by simpa [hc] using h.idle, fun _ => h.slot (by simp [hc]), h.brk, fun _ => rfl, h.data,
    fun he => ⟨by simp, (h.ending he).2⟩, fun d hd he => ?_, by simp, fun hn => absurd rfl hn⟩
  obtain rfl := Option.some.inj hd
  obtain ⟨hread, hlen⟩ := h.bytes c hc he
  rw [hf, Option.getD_some] at hlen
  refine ⟨?_, by simp only [Option.getD_none]; omega⟩
  simp only [List.length_append]
  have hout : TxSide.onOutput { x with
      readInFlight := none, fifo := x.fifo ++ bs, cur := some { c with bytesRead := c.bytesRead + bs.length } } =
      x.onOutput := rfl
  omega

/-- What the end of a data read does: its bytes join the FIFO of a record still current, or the rest of the transmitter
does one of the elementary effects. -/
theorem takeRead_cases (h : l.tx.agrees) {n : Nat} (hf : l.tx.readInFlight = some n) (time : Word)
    (data : Option (List Byte)) :
    (∃ c bs, l.tx.cur = some c ∧ data = some bs ∧ (l.takeRead i time data).tx = { l.tx with
      readInFlight := none, fifo := l.tx.fifo ++ bs, cur := some { c with bytesRead := c.bytesRead + bs.length } }) ∨
    TxEffect { l.tx with readInFlight := none } (l.takeRead i time data).tx := by
  have hdrop := agrees_dropRead h
  unfold Line.takeRead
  dsimp only
  split
  next c bs hc he => exact .inl ⟨c, bs, hc, rfl, rfl⟩
  next c hc he =>
    right
    split
    next bits ho =>
      exact endAfterOutput_effect (l := { l with tx := { l.tx with readInFlight := none } }) hdrop time .busError
        (by simp [hc]) (.inr rfl)
    next hdata =>
      refine endRecord_effect { l with tx := { l.tx with readInFlight := none } } i time .busError (fun hb => ?_) hdata
        (by simp)
      rw [h.brkRead (h.brk.1 hb)] at hf
      cases hf
  · exact .inr (.refl _)

theorem takeRead_agrees (h : l.tx.agrees) {n : Nat} (hf : l.tx.readInFlight = some n) (time : Word)
    (data : Option (List Byte)) (hn : ∀ bs, data = some bs → bs.length = n) : (l.takeRead i time data).tx.agrees := by
  rcases takeRead_cases (i := i) h hf time data with ⟨c, bs, hc, hd, e⟩ | heffect
  · rw [e]
    exact agrees_joinRead h hc hf (hn bs hd)
  · exact agrees_effect heffect (agrees_dropRead h)

/-- The end of a read leaves an idle transmitter idle, and no read in flight. -/
theorem takeRead_keeps (h : l.tx.agrees) {n : Nat} (hf : l.tx.readInFlight = some n) (time : Word)
    (data : Option (List Byte)) : (l.takeRead i time data).tx.readInFlight = none ∧
      (l.tx.cur = none → (l.takeRead i time data).tx.cur = none ∧ (l.takeRead i time data).tx.slot = l.tx.slot) := by
  rcases takeRead_cases (i := i) h hf time data with ⟨c, bs, hc, _, e⟩ | heffect
  · rw [e]
    exact ⟨rfl, fun h0 => by simp [h0] at hc⟩
  · exact ⟨heffect.keeps.readInFlight, fun h0 => ⟨heffect.keeps.cur h0, heffect.keeps.slot h0⟩⟩

theorem takeRead_fits (h : l.txFits) {n : Nat} (hf : l.tx.readInFlight = some n) (time : Word)
    (data : Option (List Byte)) (hn : ∀ bs, data = some bs → bs.length = n) : (l.takeRead i time data).txFits where
  agrees := takeRead_agrees h.agrees hf time data hn
  holds hc := mayHold_of_eq (takeRead_onlyTx l i time data).state (takeRead_onlyTx l i time data).close
    (h.holds fun h0 => hc ((takeRead_keeps h.agrees hf time data).2 h0).1)
  closed _ := (takeRead_keeps h.agrees hf time data).1

/-- A record is answered at once by an idle transmitter with an empty slot. -/
theorem answerTx_fits (h : l.txFits) (hcur : l.tx.cur = none) (time : Word) (tag : Half) (st : Status) :
    (l.answerTx i time tag st).txFits := by
  have ha := h.agrees
  refine ⟨⟨ha.idle, fun hc => absurd hcur hc, ha.brk, ha.brkRead, ha.data, ha.ending, ha.bytes, ha.flight,
    fun _ => .inr ?_⟩, fun hc => absurd hcur hc, h.closed⟩
  simp [Line.answerTx]

/-- A record becomes the current one of an idle transmitter with an empty slot. -/
theorem acceptTx_fits (h : l.txFits) (hcur : l.tx.cur = none) (hslot : l.tx.slot = none) {head : Nat}
    (hw : l.wantsOrdinary head = true) (time : Word) (ws : List Window) (r : TxRecord) :
    (l.acceptTx i time ws r).txFits := by
  have ha := h.agrees
  have hst := ha.idle.2 hcur
  have hread : l.tx.readInFlight = none := by
    by_contra hn
    rcases ha.owned hn with hc | hc
    · exact hc hcur
    · exact hc hslot
  have hending : l.tx.ending = none := by
    by_contra hn
    exact (ha.ending hn).1 hcur
  unfold Line.acceptTx
  split
  · exact answerTx_fits h hcur time _ _
  · split
    · refine ⟨⟨by simp, fun _ => hslot, ?_, by simp, fun _ _ => rfl, fun hn => absurd hending hn, fun c hc _ => ?_,
        ha.flight, fun hn => absurd hread hn⟩, fun _ => ?_, h.closed⟩
      · have hbrk : l.tx.output ≠ .brk := fun hb => by simp [ha.brk.1 hb] at hst
        simpa using hbrk
      · obtain rfl := Option.some.inj hc
        have h0 : TxSide.onOutput { l.tx with
            st := .sending, cur := some { record := r, bytesRead := 0, bytesSent := 0 }, fifo := [] } = 0 :=
          onOutput_of_ne fun bits ho => by simp [ha.data bits ho] at hst
        refine ⟨?_, by simp [hread]⟩
        rw [h0]
        simp
      · simp only [Line.wantsOrdinary, Bool.or_eq_true, Bool.and_eq_true, decide_eq_true_eq, Bool.not_eq_true'] at hw
        rcases hw with ⟨ho, _⟩ | ⟨⟨hd, hdone⟩, _⟩
        · exact .inl ho
        · exact .inr (.inl ⟨hd, hdone⟩)
    · exact answerTx_fits h hcur time _ _

/-! ### The other changes of a line -/

theorem quietMove_fits (m : QuietMove s i l) (h : (s.line i).txFits) : l.txFits := by
  have hsame (k : Line) (ht : k.tx = (s.line i).tx) (hs : k.state = (s.line i).state)
      (hc : k.close = (s.line i).close) : k.txFits := (TxMove.of_tx ht hs hc).fits h
  cases m with
  | clearCounters => exact hsame _ rfl rfl rfl
  | breakEnds _ =>
    have hk := gapRestart_onlyRx { s.line i with rx := { (s.line i).rx with asm := .hunt } }
    exact hsame _ hk.tx hk.state hk.close
  | measure _ => exact hsame _ rfl rfl rfl
  | assembler _ => exact hsame _ rfl rfl rfl
  | finishClose stopped hd =>
    obtain ⟨hwind, _, _, hslot, _, hmark, _, _, _⟩ := (windUpDone_iff s i).1 hd
    have hphase := (of_decide_eq_true hwind).2
    have hstate := (of_decide_eq_true hwind).1
    have hcur : (s.line i).tx.cur = none := by
      by_contra hc
      rcases h.holds hc with ho | ⟨hdr, _⟩ | ⟨_, habort⟩
      · rw [hstate] at ho; cases ho
      · rw [((draining_iff _).1 hdr).2] at hphase; cases hphase
      · rw [habort] at hphase; cases hphase
    have hread : (s.line i).tx.readInFlight = none := by
      by_contra hn
      rcases h.agrees.owned hn with hc | hc
      · exact hc hcur
      · exact hc hslot
    exact ⟨⟨by simp [Line.finishClose], by simp [Line.finishClose], by simp [Line.finishClose, hmark],
      by simp [Line.finishClose], by simp [Line.finishClose, hmark], by simp [Line.finishClose],
      by simp [Line.finishClose], h.agrees.flight, fun hn => absurd hread hn⟩, fun hc => absurd rfl hc, fun _ => hread⟩
  | giveUpRx _ _ => exact hsame _ rfl rfl rfl
  | giveUpTx hread =>
    have ha := h.agrees
    exact ⟨⟨ha.idle, fun _ => rfl, ha.brk, ha.brkRead, ha.data, ha.ending, ha.bytes, ha.flight,
      fun hn => absurd hread hn⟩, h.holds, h.closed⟩
  | giveUpEvent => exact hsame _ rfl rfl rfl

theorem txFits_reset : Line.reset.txFits := by
  refine ⟨⟨?_, ?_, ?_, ?_, ?_, ?_, ?_, ?_, ?_⟩, fun hc => absurd rfl hc, fun _ => rfl⟩ <;> simp [Line.reset, TxSide.reset]

theorem expireStop_fits (h : l.txFits) : l.expireStop.txFits := by
  unfold Line.expireStop
  split
  next hs =>
    have ha := h.agrees
    exact ⟨⟨ha.idle, fun _ => rfl, ha.brk, ha.brkRead, ha.data, ha.ending, ha.bytes, ha.flight,
      fun hn => absurd (h.closed hs) hn⟩, h.holds, h.closed⟩
  · exact ⟨txFits_reset.agrees, fun hc => absurd rfl hc, fun _ => rfl⟩

end Sys2Proof.Machine
end

section
/-! SUPPORT. What every happening of a line but the end of its data read leaves of the read in flight and of the transmit
FIFO, in whatever state the line stands: the read stays, and the FIFO gets no longer (R83, R85). -/

namespace Sys2Proof.Machine

variable {s t : State} {i : LineNo} {l k : Line} {x y z : TxSide}

/-- The read in flight stays, and the transmit FIFO gets no longer. -/
structure ReadKept (x y : TxSide) : Prop where
  read : y.readInFlight = x.readInFlight
  fifo : y.fifo.length ≤ x.fifo.length

theorem ReadKept.of_eq (e : y = x) : ReadKept x y := e ▸ ⟨rfl, le_rfl⟩

theorem ReadKept.trans (h : ReadKept x y) (h' : ReadKept y z) : ReadKept x z :=
  ⟨h'.read.trans h.read, h'.fifo.trans h.fifo⟩

theorem TxEffect.readKept (h : TxEffect x y) : ReadKept x y := ⟨h.keeps.readInFlight, h.keeps.fifo⟩

theorem TxMove.readKept (h : TxMove l k) : ReadKept l.tx k.tx := h.effect.readKept

/-! ### The operations of the transmitter -/

theorem endRecord_readKept (l : Line) (i : LineNo) (time : Word) (st : Status) :
    ReadKept l.tx (l.endRecord i time st).tx := by
  unfold Line.endRecord
  split
  · exact ⟨rfl, Nat.zero_le _⟩
  · exact .of_eq rfl

theorem endAfterOutput_readKept (l : Line) (i : LineNo) (time : Word) (st : Status) :
    ReadKept l.tx (l.endAfterOutput i time st).tx := ⟨rfl, Nat.zero_le _⟩

theorem stopBreak_endRecord_readKept (l : Line) (i : LineNo) (time : Word) (st : Status) :
    ReadKept l.tx (l.stopBreak.endRecord i time st).tx :=
  ReadKept.trans (y := l.stopBreak.tx) ⟨rfl, le_rfl⟩ (endRecord_readKept _ i time st)

theorem abortCurrent_readKept (l : Line) (i : LineNo) (time : Word) : ReadKept l.tx (l.abortCurrent i time).tx := by
  unfold Line.abortCurrent
  split
  · exact .of_eq rfl
  · split
    · exact endAfterOutput_readKept l i time _
    · exact endAfterOutput_readKept l i time _
    · exact stopBreak_endRecord_readKept l i time _
    · exact endRecord_readKept l i time _

theorem flushCurrent_readKept (l : Line) (i : LineNo) (time : Word) : ReadKept l.tx (l.flushCurrent i time).tx := by
  unfold Line.flushCurrent
  split
  · exact .of_eq rfl
  · split
    · exact endAfterOutput_readKept l i time _
    · exact stopBreak_endRecord_readKept l i time _
    · exact endRecord_readKept l i time _

theorem dataSent_readKept (l : Line) (i : LineNo) (time : Word) : ReadKept l.tx (l.dataSent i time).tx := by
  have hended {k : Line} {st : Status} (hk : ReadKept l.tx k.tx) : ReadKept l.tx (k.endRecord i time st).tx :=
    hk.trans (endRecord_readKept k i time st)
  unfold Line.dataSent
  dsimp only
  repeat' split
  · refine hended ?_
    exact ⟨rfl, le_rfl⟩
  · exact ⟨rfl, le_rfl⟩
  · refine hended ?_
    exact ⟨rfl, le_rfl⟩
  · exact ⟨rfl, le_rfl⟩
  · exact ⟨rfl, le_rfl⟩

theorem flowSent_readKept (l : Line) (i : LineNo) (time : Word) : ReadKept l.tx (l.flowSent i time).tx := by
  have hmark : ReadKept l.tx { l.tx with output := .mark } := ⟨rfl, le_rfl⟩
  unfold Line.flowSent
  dsimp only
  split
  · exact hmark.trans (endRecord_readKept { l with tx := { l.tx with output := .mark } } i time _)
  · exact hmark

theorem abort_readKept (ht : k.tx = l.tx) (time : Word) : ReadKept l.tx (k.abort i time).tx := by
  have hrest : ReadKept l.tx k.abortRest.tx := ht ▸ ⟨rfl, le_rfl⟩
  rw [abort_eq]
  exact hrest.trans (abortCurrent_readKept k.abortRest i time)

/-! ### The happenings -/

theorem failAttempt_readKept (ht : k.tx = l.tx) (time : Word) : ReadKept l.tx (k.failAttempt i time).tx := by
  unfold Line.failAttempt Line.failDiscovery
  dsimp only
  split
  · refine abort_readKept ?_ time
    exact ht
  · exact .of_eq ht

theorem trialChar_readKept (l : Line) (i : LineNo) (time : Word) (t : List RateEntry) (c : Received) :
    ReadKept l.tx (l.trialChar i time t c).tx := by
  unfold Line.trialChar
  dsimp only
  repeat' split
  · exact failAttempt_readKept rfl time
  · exact .of_eq rfl
  · exact failAttempt_readKept rfl time
  · exact .of_eq (succeed_tx _ _ _ _ _ _)

theorem takeInterval_readKept (l : Line) (i : LineNo) (time : Word) (t : List RateEntry) (n : Nat) :
    ReadKept l.tx (l.takeInterval i time t n).tx := by
  have hevaluated (k : Line) (hk : k.tx = l.tx) : ReadKept l.tx (k.evaluateWindow i time t).tx := by
    unfold Line.evaluateWindow
    split
    · exact .of_eq hk
    · exact failAttempt_readKept hk time
  rw [takeInterval_eq]
  split_ifs
  · exact .of_eq rfl
  · exact hevaluated _ rfl
  · exact .of_eq rfl

theorem takeClose_readKept (l : Line) (i : LineNo) (time : Word) (m : CloseMode) (tag : Half) (limit n : Nat) :
    ReadKept l.tx (l.takeClose i time m tag limit n).tx := by
  unfold Line.takeClose
  cases m with
  | immediate =>
    refine abort_readKept ?_ time
    exact rfl
  | graceful => exact .of_eq rfl

theorem overtake_readKept (l : Line) (i : LineNo) (time : Word) (g tag : Half) :
    ReadKept l.tx (l.overtake i time g tag).tx := by
  unfold Line.overtake
  dsimp only
  split
  · refine abort_readKept ?_ time
    exact rfl
  · exact .of_eq rfl

theorem stopLine_readKept (l : Line) (i : LineNo) (time : Word) : ReadKept l.tx (l.stopLine i time).tx := by
  unfold Line.stopLine
  split
  · exact .of_eq rfl
  · split
    · refine abort_readKept ?_ time
      exact rfl
    · exact .of_eq rfl
  · refine abort_readKept ?_ time
    exact rfl

theorem lineMove_readKept (m : LineMove s i l) : ReadKept (s.line i).tx l.tx := by
  cases m with
  | settle => exact .of_eq rfl
  | openLine r _ hs _ => exact (openWith_txMove _ r hs).readKept
  | modify r _ => exact (modify_txMove _ r).readKept
  | setDelims r _ _ => exact .of_eq (setDelims_onlyRx _ r).tx
  | rediscover _ _ _ => exact (rediscover_effect _ _).readKept
  | takeFlush tag n _ =>
    exact ReadKept.trans (y := { (s.line i).tx with
      flushBoundary := some n, flushPhase := some .ending, flushDue := none }) ⟨rfl, le_rfl⟩
      (flushCurrent_readKept { s.line i with long := _, tx := _ } i _)
  | flushRx _ => exact (flushRx_txMove _ _).readKept
  | takeClose m tag lim n _ => exact takeClose_readKept _ i _ m tag lim n
  | overtake g tag _ => exact overtake_readKept _ i _ g tag
  | openChar c _ => refine (TxMove.comp ?_ ?_ ?_ (openChar_txMove _ c)).readKept <;> rfl
  | trialChar c _ => exact trialChar_readKept _ i _ _ c
  | openBreak _ => exact (openBreak_txMove _).readKept
  | failAttempt _ => exact failAttempt_readKept rfl _
  | takeInterval n _ => exact takeInterval_readKept _ i _ _ n
  | gapExpire _ => exact (gapExpire_txMove _).readKept
  | failDiscovery r _ =>
    refine abort_readKept ?_ _
    exact rfl
  | takeChar v pe fe loss _ _ =>
    exact .of_eq ((takeChar_onlyRx (s.line i).popFifo.flowFall i s.time v pe fe loss).tx.trans
      (flowFall_onlyFlow (s.line i).popFifo).tx)
  | takeMarker gap loss _ =>
    have hf := flowFall_onlyFlow (s.line i).popFifo
    exact (TxMove.comp (l := s.line i) hf.tx hf.state hf.close (takeMarker_txMove _ gap i s.time loss)).readKept
  | answerBuffer _ _ => exact .of_eq (answerBuffer_onlyRx _ i _).tx
  | takeChunk n ok _ => exact .of_eq (takeChunk_onlyRx _ i _ n ok).tx
  | dataSent bits _ => exact dataSent_readKept _ i _
  | flowSent c bits _ => exact flowSent_readKept _ i _
  | endBreak _ => exact stopBreak_endRecord_readKept _ i _ _
  | pauseExpire _ => refine (TxMove.comp ?_ ?_ ?_ (appendEvent_txMove _ _)).readKept <;> rfl
  | cutDrain _ =>
    refine abort_readKept ?_ _
    exact rfl
  | event c => exact (appendEvent_txMove _ c).readKept

theorem acceptTx_readKept (l : Line) (i : LineNo) (time : Word) (ws : List Window) (r : TxRecord) :
    ReadKept l.tx (l.acceptTx i time ws r).tx := by
  unfold Line.acceptTx
  repeat' split
  · exact ⟨rfl, le_rfl⟩
  · exact ⟨rfl, Nat.zero_le _⟩
  · exact ⟨rfl, le_rfl⟩

theorem quietMove_readKept (m : QuietMove s i l) : ReadKept (s.line i).tx l.tx := by
  cases m with
  | clearCounters => exact .of_eq rfl
  | breakEnds _ => exact .of_eq (gapRestart_onlyRx { s.line i with rx := { (s.line i).rx with asm := .hunt } }).tx
  | measure _ => exact .of_eq rfl
  | assembler _ => exact .of_eq rfl
  | finishClose stopped _ => exact ⟨rfl, Nat.zero_le _⟩
  | giveUpRx _ _ => exact .of_eq rfl
  | giveUpTx _ => exact ⟨rfl, le_rfl⟩
  | giveUpEvent => exact .of_eq rfl

end Sys2Proof.Machine
end

section
/-! SUPPORT. What a move can do to the data reads that the Memory Engine has for one line, said once: the invariants of the
transmitter's reads are proved over these changes (R83, R170, R173). -/

namespace Sys2Proof.Machine

variable {tbl : Bool} {s t : State} {i j : LineNo} {l k : Line} {e f g : Engine}

/-! ### The data reads of a line -/

/-- The requests that wait and that of the access in progress, let end or not. -/
def Engine.known (e : Engine) : List Request :=
  e.listA ++ e.listB ++ e.listC ++ e.listD ++ e.access.toList.map Access.request

/-- The data reads that the Engine has for line `j`, as requests and as results. -/
def Engine.readCount (e : Engine) (j : LineNo) : Nat :=
  (e.requests.countP fun r => r.requester = .dataRead j) + (e.results.countP fun x => x.requester = .dataRead j)

/-- The bytes can be the data of the request's result: all that a read asks for, and none of a write (R173). -/
def Request.answeredBy (r : Request) (bs : List Byte) : Prop :=
  (∀ k, r.transfer = .read k → bs.length = k) ∧ ∀ ws, r.transfer = .write ws → bs = []

/-- The Engine has got no further data read of line `j`, and reports a result only of a request that it had. -/
structure FewerReads (j : LineNo) (e f : Engine) : Prop where
  count : f.readCount j ≤ e.readCount j
  requests : ∀ r ∈ f.requests, r.requester = .dataRead j → r ∈ e.requests
  known : ∀ r ∈ f.known, r.requester = .dataRead j → r ∈ e.known
  results : ∀ x ∈ f.results, x.requester = .dataRead j → x ∈ e.results ∨
    ∃ r ∈ e.requests, r.requester = .dataRead j ∧ ∀ bs, x.data = some bs → r.answeredBy bs

theorem requests_known {r : Request} (h : r ∈ e.requests) : r ∈ e.known := by
  simp only [Engine.requests, Engine.known, List.mem_append, List.mem_map, Option.mem_toList,
    Option.filter_eq_some_iff] at h ⊢
  rcases h with h | ⟨a, ⟨ha, _⟩, hr⟩
  · exact .inl h
  · exact .inr ⟨a, ha, hr⟩

theorem FewerReads.refl (j : LineNo) (e : Engine) : FewerReads j e e :=
  ⟨le_rfl, fun _ h _ => h, fun _ h _ => h, fun _ h _ => .inl h⟩

theorem FewerReads.of_eq (h : f = e) : FewerReads j e f := h ▸ .refl j e

theorem FewerReads.trans (h : FewerReads j e f) (h' : FewerReads j f g) : FewerReads j e g where
  count := h'.count.trans h.count
  requests r hr hj := h.requests r (h'.requests r hr hj) hj
  known r hr hj := h.known r (h'.known r hr hj) hj
  results x hx hj := by
    rcases h'.results x hx hj with hold | ⟨r, hr, hrj, hdata⟩
    · exact h.results x hold hj
    · exact .inr ⟨r, h.requests r hr hrj, hrj, hdata⟩

/-- Requests that are no data read of line `j` join the lists. -/
theorem FewerReads.asks (e : Engine) (as bs cs ds : List Request)
    (h : ∀ r ∈ as ++ bs ++ cs ++ ds, r.requester ≠ .dataRead j) : FewerReads j e { e with
      listA := e.listA ++ as, listB := e.listB ++ bs, listC := e.listC ++ cs, listD := e.listD ++ ds } := by
  simp only [List.mem_append, or_imp, forall_and] at h
  obtain ⟨⟨⟨ha, hb⟩, hc⟩, hd⟩ := h
  have hnone (rs : List Request) (hrs : ∀ r ∈ rs, r.requester ≠ .dataRead j) :
      rs.countP (fun r => r.requester = .dataRead j) = 0 := by
    simpa [List.countP_eq_zero] using hrs
  refine ⟨?_, fun r hr hj => ?_, fun r hr hj => ?_, fun x hx _ => .inl hx⟩
  · simp only [Engine.readCount, Engine.requests, List.countP_append, hnone _ ha, hnone _ hb, hnone _ hc, hnone _ hd]
    omega
  · simp only [Engine.requests, List.mem_append] at hr ⊢
    have := ha r; have := hb r; have := hc r; have := hd r
    tauto
  · simp only [Engine.known, List.mem_append] at hr ⊢
    have := ha r; have := hb r; have := hc r; have := hd r
    tauto

/-- A request that is no data read of line `j` joins its class's list. -/
theorem FewerReads.push (e : Engine) (r : Request) (h : r.requester ≠ .dataRead j) : FewerReads j e (e.push r) := by
  have hr : ∀ x ∈ [r], x.requester ≠ .dataRead j := by simpa using h
  unfold Engine.push
  split
  · simpa using FewerReads.asks e [r] [] [] [] (by simpa using h)
  · simpa using FewerReads.asks e [] [r] [] [] (by simpa using h)
  · simpa using FewerReads.asks e [] [] [r] [] (by simpa using h)
  · simpa using FewerReads.asks e [] [] [] [r] (by simpa using h)

/-- A result is taken. -/
theorem FewerReads.drop (s : State) (w : Requester) : FewerReads j s.engine (s.dropResult w).engine where
  count := by
    have := (List.eraseP_sublist (l := s.engine.results) (p := fun x => x.requester = w)).countP_le
      (p := fun x => decide (x.requester = .dataRead j))
    simp only [Engine.readCount, Engine.requests, State.dropResult]
    omega
  requests _ hr _ := hr
  known _ hr _ := hr
  results _ hx _ := .inl (List.mem_of_mem_eraseP hx)

/-! ### Grants and the ends of accesses -/

theorem roundRobin_mem {last : Member} {rs : List Request} {m : Member} {r : Request}
    (h : roundRobin last rs = some (m, r)) : r ∈ rs := by
  unfold roundRobin at h
  obtain ⟨m', _, hm⟩ := List.exists_of_findSome?_eq_some h
  obtain ⟨r', hr, he⟩ := Option.map_eq_some_iff.1 hm
  obtain ⟨_, rfl⟩ := Prod.mk.inj he
  exact List.mem_of_find?_eq_some hr

/-- A grant takes one request out of the lists (R172). -/
theorem pick_perm {r : Request} (h : e.pick = some (r, f)) :
    (e.listA ++ e.listB ++ e.listC ++ e.listD).Perm (r :: (f.listA ++ f.listB ++ f.listC ++ f.listD)) ∧
      f.results = e.results := by
  unfold Engine.pick at h
  split at h
  next x rest hA =>
    obtain ⟨rfl, rfl⟩ := Prod.mk.inj (Option.some.inj h)
    exact ⟨by simp [hA], rfl⟩
  next hA =>
    split at h
    next hB =>
      obtain ⟨rfl, rfl⟩ := Prod.mk.inj (Option.some.inj h)
      refine ⟨?_, rfl⟩
      simpa [hA] using (List.perm_cons_erase (roundRobin_mem hB)).append_right (e.listC ++ e.listD)
    · split at h
      next hC =>
        obtain ⟨rfl, rfl⟩ := Prod.mk.inj (Option.some.inj h)
        refine ⟨?_, rfl⟩
        have hp := ((List.perm_cons_erase (roundRobin_mem hC)).append_right e.listD).append_left e.listB
        simpa [hA] using hp.trans List.perm_middle
      · split at h
        next hD =>
          obtain ⟨rfl, rfl⟩ := Prod.mk.inj (Option.some.inj h)
          refine ⟨?_, rfl⟩
          have hp := (List.perm_cons_erase (roundRobin_mem hD)).append_left (e.listB ++ e.listC)
          simpa [hA] using hp.trans List.perm_middle
        · cases h

/-- The access that begins for a request is a data read only as the request is. -/
theorem beginAccess_access (s : State) (r : Request) : ∃ p,
    (p.requester = r.requester ∧ (p.requester = .dataRead j → p = r)) ∧
      (s.beginAccess r).engine = { s.engine with access := some { request := p, began := s.time, deliver := true } } := by
  rw [beginAccess_eq]
  refine ⟨_, ⟨?_, fun h => ?_⟩, rfl⟩
  · split <;> rfl
  · split at h
    next hp => rw [show r.requester = .dataRead j from h] at hp; cases hp
    next hp => rw [if_neg hp]

theorem FewerReads.grant {r : Request} (hnone : s.engine.access = none) (h : s.engine.pick = some (r, e)) :
    FewerReads j s.engine (({ s with engine := e } : State).beginAccess r).engine := by
  obtain ⟨hperm, hresults⟩ := pick_perm h
  obtain ⟨p, ⟨hsame, hp⟩, heq⟩ := beginAccess_access (j := j) ({ s with engine := e } : State) r
  have hrequests : s.engine.requests = s.engine.listA ++ s.engine.listB ++ s.engine.listC ++ s.engine.listD := by
    simp [Engine.requests, hnone]
  have hknown : s.engine.known = s.engine.listA ++ s.engine.listB ++ s.engine.listC ++ s.engine.listD := by
    simp [Engine.known, hnone]
  have hmem (x : Request) (hx : x ∈ e.listA ++ e.listB ++ e.listC ++ e.listD ++ [p]) (hj : x.requester = .dataRead j) :
      x ∈ s.engine.listA ++ s.engine.listB ++ s.engine.listC ++ s.engine.listD := by
    rw [hperm.mem_iff]
    rcases List.mem_append.1 hx with hx | hx
    · exact List.mem_cons_of_mem _ hx
    · obtain rfl := List.mem_singleton.1 hx
      exact hp hj ▸ List.mem_cons_self
  rw [heq]
  refine ⟨?_, fun x hx hj => hrequests ▸ hmem x hx hj, fun x hx hj => hknown ▸ hmem x hx hj,
    fun x hx _ => .inl (hresults ▸ hx)⟩
  have hcount := hperm.countP_eq fun x => decide (x.requester = .dataRead j)
  rw [Engine.readCount, Engine.readCount, hrequests, hcount, ← hresults]
  refine Nat.add_le_add_right (le_of_eq ?_) _
  simp [Engine.requests, Option.filter, List.countP_append, List.countP_cons, hsame, add_assoc]

theorem FewerReads.readSetup {r : Request} (hnone : s.engine.access = none) (h : r.requester = .setupRead) :
    FewerReads j s.engine (s.beginAccess r).engine := by
  obtain ⟨p, ⟨hsame, _⟩, heq⟩ := beginAccess_access (j := j) s r
  have hne : p.requester ≠ .dataRead j := by simp [hsame, h]
  rw [heq]
  refine ⟨?_, fun x hx hj => ?_, fun x hx hj => ?_, fun x hx _ => .inl hx⟩
  · simp [Engine.readCount, Engine.requests, hnone, Option.filter, hne]
  · simp only [Engine.requests, List.mem_append] at hx ⊢
    rcases hx with hx | hx
    · exact .inl hx
    · obtain rfl : x = p := by simpa [Option.filter] using hx
      exact absurd hj hne
  · simp only [Engine.known, List.mem_append] at hx ⊢
    rcases hx with hx | hx
    · exact .inl hx
    · obtain rfl : x = p := by simpa [eq_comm] using hx
      exact absurd hj hne

/-- The access in progress ends: its request, unless it was let end, gives way to its result (R173). -/
theorem FewerReads.accessEnds {a : Access} {data : Option (List Byte)} {rs : List Result} (ha : e.access = some a)
    (hdata : ∀ bs, data = some bs → a.request.answeredBy bs)
    (hrs : rs = e.results ∨ (a.deliver = true ∧
      rs = e.results ++ [{ requester := a.request.requester, addr := a.request.addr, data := data }])) :
    FewerReads j e { e with access := none, results := rs } := by
  refine ⟨?_, fun x hx hj => ?_, fun x hx hj => ?_, fun x hx hj => ?_⟩
  · rcases hrs with rfl | ⟨hd, rfl⟩
    · simp only [Engine.readCount, Engine.requests, List.countP_append, Option.filter_none, Option.toList_none,
        List.map_nil, List.countP_nil]
      omega
    · simp [Engine.readCount, Engine.requests, ha, Option.filter, hd, List.countP_append, List.countP_cons]
      omega
  · simp only [Engine.requests, List.mem_append] at hx ⊢
    simpa using Or.inl (by simpa using hx)
  · simp only [Engine.known, List.mem_append] at hx ⊢
    simpa using Or.inl (by simpa using hx)
  · rcases hrs with rfl | ⟨hd, rfl⟩
    · exact .inl hx
    · rcases List.mem_append.1 hx with hx | hx
      · exact .inl hx
      · obtain rfl := List.mem_singleton.1 hx
        refine .inr ⟨a.request, ?_, hj, hdata⟩
        simp [Engine.requests, ha, Option.filter, hd]

/-! ### The requests of a line -/

theorem chunkRequests_ne {r : Request} (h : r ∈ l.chunkRequests i) : r.requester ≠ .dataRead j := by
  unfold Line.chunkRequests at h
  split at h
  · obtain rfl := List.mem_singleton.1 h
    simp
  · cases h

/-- A fetch is no data read. -/
theorem fetch_ne (q : RqNo) (b : Bool) : ∀ r ∈ (if b then [s.fetchRequest q] else []), r.requester ≠ .dataRead j := by
  intro r hr
  split at hr
  · obtain rfl := List.mem_singleton.1 hr
    simp [State.fetchRequest]
  · cases hr

theorem lineFetches_ne {r : Request} (h : r ∈ s.lineFetches i l) : r.requester ≠ .dataRead j :=
  (List.mem_append.1 h).elim (fetch_ne _ _ r) (fetch_ne _ _ r)

theorem readRequests_requester {r : Request} (h : r ∈ l.readRequests i) : r.requester = .dataRead i := by
  unfold Line.readRequests at h
  split at h
  · split at h
    · obtain rfl := List.mem_singleton.1 h
      rfl
    · cases h
  · cases h

/-- What a line that has taken a happening asks of the Engine: at most its next data read, besides other requests. -/
theorem LineTakes.reads (h : LineTakes i s t l) (j : LineNo) :
    (j ≠ i ∧ t.line j = s.line j ∧ FewerReads j s.engine t.engine) ∨
    (j = i ∧ t.line j = l.settled j s.time (s.rq (txq j)) ∧ ∃ e, FewerReads j s.engine e ∧
      t.engine = { e with listC := e.listC ++ l.readRequests j }) := by
  obtain ⟨honly, hline, _, hengine⟩ := h
  by_cases hj : j = i
  · subst hj
    refine .inr ⟨rfl, hline, { s.engine with
      listB := s.engine.listB ++ l.chunkRequests j, listD := s.engine.listD ++ s.lineFetches j (t.line j) }, ?_, hengine⟩
    simpa using FewerReads.asks s.engine [] (l.chunkRequests j) [] (s.lineFetches j (t.line j)) fun r hr => by
      simp only [List.mem_append, List.not_mem_nil, false_or, or_false] at hr
      rcases hr with hr | hr
      · exact chunkRequests_ne hr
      · exact lineFetches_ne hr
  · refine .inl ⟨hj, (honly.2 j hj).1, ?_⟩
    rw [hengine]
    simpa using FewerReads.asks s.engine [] (l.chunkRequests i) (l.readRequests i) (s.lineFetches i (t.line i))
      fun r hr => by
        simp only [List.mem_append, List.not_mem_nil, false_or] at hr
        rcases hr with (hr | hr) | hr
        · exact chunkRequests_ne hr
        · rw [readRequests_requester hr]
          exact fun hc => hj (Requester.dataRead.inj hc).symm
        · exact lineFetches_ne hr

/-- At stop-limit expiry a line gets no read and no byte. -/
theorem expireStop_reads (l : Line) : l.expireStop.tx.fifo.length ≤ l.tx.fifo.length ∧
    (l.expireStop.tx.readInFlight = none ∨ l.expireStop.tx.readInFlight = l.tx.readInFlight) := by
  unfold Line.expireStop
  split
  · exact ⟨le_rfl, .inr rfl⟩
  · exact ⟨Nat.zero_le _, .inl rfl⟩

/-! ### The moves -/

/-- What a move from `s` to `t` does to the transmitter of line `j` and to the data reads that the Engine has for it. -/
inductive ReadsChange (s t : State) (j : LineNo) : Prop
  | kept : ReadKept (s.line j).tx (t.line j).tx → FewerReads j s.engine t.engine → ReadsChange s t j
  | settles (l : Line) (e : Engine) (time : Word) (q : ReqQueue) : ReadKept (s.line j).tx l.tx →
      t.line j = l.settled j time q → FewerReads j s.engine e →
      t.engine = { e with listC := e.listC ++ l.readRequests j } → ReadsChange s t j
  | readEnds (n : Nat) (x : Result) (e : Engine) (time : Word) (q : ReqQueue) : (s.line j).tx.readInFlight = some n →
      s.result? (.dataRead j) = some x → t.line j = ((s.line j).takeRead j s.time x.data).settled j time q →
      FewerReads j (s.dropResult (.dataRead j)).engine e →
      t.engine = { e with listC := e.listC ++ ((s.line j).takeRead j s.time x.data).readRequests j } → ReadsChange s t j
  | cleared : t.engine.requests = [] → t.engine.results = [] → (∀ r ∈ t.engine.known, r ∈ s.engine.known) →
      (t.line j).tx.fifo.length ≤ (s.line j).tx.fifo.length →
      (t.line j).tx.readInFlight = none ∨ (t.line j).tx.readInFlight = (s.line j).tx.readInFlight → ReadsChange s t j

/-- A line settles after a change that keeps its data read. -/
theorem ReadsChange.of_takes {u : State} (hl : ∀ j, u.line j = s.line j) (he : FewerReads j s.engine u.engine)
    (hk : ReadKept (s.line i).tx l.tx) (h : LineTakes i u t l) : ReadsChange s t j := by
  rcases h.reads j with ⟨_, hline, hf⟩ | ⟨rfl, hline, e, hf, heq⟩
  · exact .kept (.of_eq (by rw [hline, hl])) (he.trans hf)
  · exact .settles l e _ _ hk hline (he.trans hf) heq

/-- Everything is discarded, and the line is as it was, or has no read and an empty FIFO. -/
theorem ReadsChange.of_discarded (he : t.engine = s.engine.discardAll)
    (hl : (t.line j).tx.fifo.length ≤ (s.line j).tx.fifo.length ∧
      ((t.line j).tx.readInFlight = none ∨ (t.line j).tx.readInFlight = (s.line j).tx.readInFlight)) :
    ReadsChange s t j := by
  refine .cleared ?_ (by rw [he]; rfl) (fun r hr => ?_) hl.1 hl.2
  · rw [he]
    cases ha : s.engine.access <;> simp [Engine.requests, Engine.discardAll, ha, Option.filter]
  · rw [he] at hr
    simp only [Engine.known, Engine.discardAll, List.append_nil, List.nil_append] at hr
    obtain ⟨b, hb, rfl⟩ := List.mem_map.1 hr
    obtain ⟨a, ha, rfl⟩ := Option.map_eq_some_iff.1 (Option.mem_toList.1 hb)
    simp [Engine.known, ha]

theorem advanceHead_fewerReads (s : State) (q : RqNo) : FewerReads j s.engine (s.advanceHead q).engine := by
  rw [advanceHead_eq]
  dsimp only
  split
  · exact .refl j _
  · simpa using FewerReads.asks s.engine [_] [] [] [] (by simp)

/-- Every move changes the data reads of a line in one of these ways. -/
theorem Move.reads (m : Move tbl s t) (j : LineNo) : ReadsChange s t j := by
  have hsame (hl : t.lines = s.lines) (he : FewerReads j s.engine t.engine) : ReadsChange s t j :=
    .kept (.of_eq (by rw [State.line_congr hl])) he
  have hline (q : RqNo) : ∀ j, ((s.endFetch q).advanceHead q).line j = s.line j := advanceHead_line (s.endFetch q) q
  have hreads (q : RqNo) : FewerReads j s.engine ((s.endFetch q).advanceHead q).engine :=
    advanceHead_fewerReads (s.endFetch q) q
  cases m
  case registers hc _ => exact hsame hc.lines (.of_eq hc.engine)
  case quiet i l hq =>
    refine .kept ?_ (.of_eq rfl)
    by_cases hj : j = i
    · subst hj
      rw [State.line_setLine_self]
      exact quietMove_readKept hq
    · rw [State.line_setLine_ne s l hj]
      exact .of_eq rfl
  case takes i l hl ht => exact .of_takes (u := s) (fun _ => rfl) (.refl j _) (lineMove_readKept hl) ht
  case dataRead i n x hn hx ht =>
    rcases ht.reads j with ⟨_, hline, hf⟩ | ⟨rfl, hline, e, hf, heq⟩
    · exact .kept (.of_eq (by rw [hline]; rfl)) ((FewerReads.drop s _).trans hf)
    · exact .readEnds n x e _ _ hn hx hline hf heq
  case deliverRx i r _ _ _ ht => 
    refine .of_takes (hline _) (hreads _) ?_ ht
    exact .of_eq rfl
  case answerTx i tag st _ _ _ ht => 
    refine .of_takes (hline _) (hreads _) ?_ ht
    exact ⟨rfl, le_rfl⟩
  case acceptTx i r _ _ _ ht =>
    exact .of_takes (hline _) (hreads _) (acceptTx_readKept _ i _ _ r) ht
  case stopLines =>
    refine .kept ?_ (.of_eq rfl)
    simpa [State.line] using stopLine_readKept (s.line j) j s.time
  case tick =>
    have htick : ReadKept (s.line j).tx (s.line j).tick.tx := .of_eq rfl
    refine .kept ?_ (.of_eq rfl)
    simpa [State.line] using htick
  case advanceHead q _ => exact hsame (by rw [advanceHead_eq]) (advanceHead_fewerReads s q)
  case askRpq i =>
    refine hsame (by rw [askRpq_eq]; rfl) ?_
    rw [askRpq_eq]
    simpa using FewerReads.asks s.engine [] [] [] (if (s.line i).asksRpq (s.rq (rpq i)) then [s.fetchRequest (rpq i)] else [])
      (fetch_ne _ _)
  case askTxq i =>
    refine hsame (by rw [askTxq_eq]; rfl) ?_
    rw [askTxq_eq]
    simpa using FewerReads.asks s.engine [] [] [] (if (s.line i).asksTxq (s.rq (txq i)) then [s.fetchRequest (txq i)] else [])
      (fetch_ne _ _)
  case askCtl =>
    refine hsame (by rw [askCtl_eq]; split <;> rfl) ?_
    rw [askCtl_eq]
    split
    · simpa using FewerReads.asks s.engine [] [] [] [_] (by simp)
    · exact .refl j _
  case request r hr => exact hsame rfl (.push s.engine r (hr j))
  case dropResult w => exact hsame rfl (.drop s w)
  case grant r e hnone hpick => exact hsame (beginAccess_lines _ _) (.grant hnone hpick)
  case readSetup r hnone hr => exact hsame (beginAccess_lines _ _) (.readSetup hnone hr)
  case accessEnds a data m n rs ha hread hwrite _ hrs =>
    exact hsame rfl (.accessEnds ha (fun bs hb => ⟨fun k => hread bs k hb, fun ws => hwrite bs ws hb⟩) hrs)
  case discardAll => exact .of_discarded rfl ⟨le_rfl, .inr rfl⟩
  case failLoading => exact .of_discarded rfl ⟨le_rfl, .inr rfl⟩
  case enterFaulted c a =>
    refine .of_discarded rfl ?_
    rw [show (s.enterFaulted c a).line j = Line.reset from freshLines_line j]
    exact ⟨Nat.zero_le _, .inl rfl⟩
  case expireStopLimit =>
    refine .of_discarded rfl ?_
    rw [show s.expireStopLimit.line j = (s.line j).expireStop by simp [State.line, State.expireStopLimit]]
    exact expireStop_reads _
  case enterLoading =>
    obtain ⟨m, n, he, _⟩ := enterLoading_eq s
    have hline : s.enterLoading.line j = Line.reset := by
      rw [he]
      exact freshLines_line j
    have hengine : s.enterLoading.engine = Engine.reset := by rw [he]
    refine .cleared (by rw [hengine]; rfl) (by rw [hengine]; rfl) (fun r hr => ?_) ?_ ?_
    · rw [hengine] at hr
      cases hr
    · rw [hline]
      exact Nat.zero_le _
    · rw [hline]
      exact .inl rfl
  all_goals exact hsame rfl (.of_eq rfl)

end Sys2Proof.Machine
end

section
/-! PROOF. Every step keeps the transmitter consistent and its bytes accounted for (O57): line by line, the agreement of the
transmitter's fields, its idleness while a record is fetched, and the reads that the Memory Engine has for it. -/

namespace Sys2Proof.Machine

variable {tbl : Bool} {s t : State} {j : LineNo} {l : Line} {e f : Engine} {rif : Option Nat}

/-! ### The reads that the Engine has for a line -/

/-- The Engine has at most the data read `rif` of line `j`, and knows its byte count. -/
structure Engine.tied (e : Engine) (j : LineNo) (rif : Option Nat) : Prop where
  count : e.readCount j ≤ if rif = none then 0 else 1
  requests : ∀ r ∈ e.requests, r.requester = .dataRead j → ∃ n, r.transfer = .read n ∧ rif = some n
  results : ∀ x ∈ e.results, x.requester = .dataRead j → ∀ bs, x.data = some bs → rif = some bs.length

theorem readsTied_iff (s : State) (j : LineNo) : s.readsTied j ↔ s.engine.tied j (s.line j).tx.readInFlight :=
  ⟨fun ⟨hc, hr, hx⟩ => ⟨hc, hr, hx⟩, fun ⟨hc, hr, hx⟩ => ⟨hc, hr, hx⟩⟩

/-- With no read in flight the Engine has none. -/
theorem tied_none_iff : e.tied j none ↔ e.readCount j = 0 := by
  refine ⟨fun h => Nat.le_zero.1 h.count, fun h => ?_⟩
  obtain ⟨hr, hx⟩ := Nat.add_eq_zero_iff.1 h
  simp only [List.countP_eq_zero, decide_eq_true_eq] at hr hx
  exact ⟨h.le, fun r hm hj => absurd hj (hr r hm), fun x hm hj => absurd hj (hx x hm)⟩

theorem Engine.tied.fewer (h : e.tied j rif) (m : FewerReads j e f) : f.tied j rif where
  count := m.count.trans h.count
  requests r hr hj := h.requests r (m.requests r hr hj) hj
  results x hx hj bs hb := by
    rcases m.results x hx hj with hold | ⟨r, hr, hrj, hdata⟩
    · exact h.results x hold hj bs hb
    · obtain ⟨n, hn, hrif⟩ := h.requests r hr hrj
      rw [hrif, (hdata bs hb).1 n hn]

theorem tied_of_empty (hr : e.requests = []) (hx : e.results = []) (rif : Option Nat) : e.tied j rif where
  count := by simp [Engine.readCount, hr, hx]
  requests r hm := by simp [hr] at hm
  results x hm := by simp [hx] at hm

/-- The Engine gets the data read that is now in flight. -/
theorem Engine.tied.add (h : e.tied j none) (addr : Word) (n : Nat) :
    Engine.tied { e with listC := e.listC ++ [{ requester := .dataRead j, addr := addr, transfer := .read n }] } j (some n) := by
  have hzero := tied_none_iff.1 h
  obtain ⟨hr, hx⟩ := Nat.add_eq_zero_iff.1 hzero
  refine ⟨?_, fun r hm hj => ?_, fun x hm hj => ?_⟩
  · simp only [Engine.requests, List.countP_append] at hr
    simp only [Engine.readCount, Engine.requests, List.countP_append, List.countP_singleton, hx, decide_true, if_true]
    simp only [reduceCtorEq, if_false]
    omega
  · simp only [List.countP_eq_zero, decide_eq_true_eq] at hr
    have hm' : r ∈ e.requests ∨ r = { requester := .dataRead j, addr := addr, transfer := .read n } := by
      simp only [Engine.requests, List.mem_append, List.mem_singleton] at hm ⊢
      tauto
    rcases hm' with hm' | rfl
    · exact absurd hj (hr r hm')
    · exact ⟨n, rfl, rfl⟩
  · simp only [List.countP_eq_zero, decide_eq_true_eq] at hx
    exact absurd hj (hx x hm)

/-- A line that settles has the Engine know its next data read. -/
theorem Engine.tied.settled (h : e.tied j l.tx.readInFlight) (time : Word) (q : ReqQueue) :
    Engine.tied { e with listC := e.listC ++ l.readRequests j } j (l.settled j time q).tx.readInFlight := by
  rw [(settled_sameRecord l j time q).readInFlight]
  rcases settled_read l j with ⟨hnone, htx⟩ | ⟨c, n, addr, _, _, hidle, _, _, _, _, hread, htx⟩
  · rw [hnone, htx, List.append_nil, (chooseOutput_effect l).keeps.readInFlight]
    exact h
  · rw [hread, htx]
    exact (hidle ▸ h).add addr n

theorem result?_mem {w : Requester} {x : Result} (h : s.result? w = some x) :
    x ∈ s.engine.results ∧ x.requester = w :=
  ⟨List.mem_of_find?_eq_some h, by simpa using List.find?_some h⟩

/-- Once its result is taken, the Engine has no data read of the line. -/
theorem Engine.tied.taken {n : Nat} {x : Result} (h : s.engine.tied j (some n)) (hx : s.result? (.dataRead j) = some x) :
    (s.dropResult (.dataRead j)).engine.tied j none := by
  obtain ⟨hm, hw⟩ := result?_mem hx
  obtain ⟨y, before, after, _, hy, hl, herase⟩ :=
    List.exists_of_eraseP (p := fun y : Result => decide (y.requester = .dataRead j)) hm (by simpa using hw)
  have hcount := h.count
  simp only [Engine.readCount, hl, List.countP_append, List.countP_cons, hy, reduceCtorEq, if_true, if_false] at hcount
  rw [tied_none_iff]
  have hresults : (s.dropResult (.dataRead j)).engine.results = before ++ after := herase
  rw [Engine.readCount, hresults, List.countP_append]
  have hrequests : (s.dropResult (.dataRead j)).engine.requests = s.engine.requests := rfl
  rw [hrequests]
  omega

/-! ### One line's transmitter -/

/-- The transmitter of line `j` fits, stands idle with an empty slot while a record of its TXQ is fetched, and the Engine's
data reads for it are its own. -/
structure State.txWhole (s : State) (j : LineNo) : Prop where
  fits : (s.line j).txFits
  fetch : (s.rq (txq j)).fetch = true → (s.line j).tx.cur = none ∧ (s.line j).tx.slot = none
  tied : s.engine.tied j (s.line j).tx.readInFlight

theorem transmitterAccounted_iff (s : State) : TransmitterAgrees s ∧ ReadsAccounted s ↔ ∀ j, s.txWhole j := by
  refine ⟨fun ⟨ha, hr⟩ j => ?_, fun h => ⟨fun j => ?_, fun j => ?_⟩⟩
  · obtain ⟨idle, slot, fetch, brk, brkRead, data, ending⟩ := ha j
    obtain ⟨bytes, ⟨flight, owned, holds, closed⟩, tied⟩ := hr j
    exact ⟨⟨⟨idle, slot, brk, brkRead, data, ending, bytes, flight, owned⟩, holds, closed⟩, fetch,
      (readsTied_iff s j).1 tied⟩
  · obtain ⟨⟨hagrees, _, _⟩, fetch, _⟩ := h j
    obtain ⟨idle, slot, brk, brkRead, data, ending, _, _, _⟩ := hagrees
    exact ⟨idle, slot, fetch, brk, brkRead, data, ending⟩
  · obtain ⟨⟨hagrees, holds, closed⟩, _, tied⟩ := h j
    obtain ⟨_, _, _, _, _, _, bytes, flight, owned⟩ := hagrees
    exact ⟨bytes, ⟨flight, owned, holds, closed⟩, (readsTied_iff s j).2 tied⟩

/-- Each change of a line keeps its transmitter fitting. -/
theorem txFits_change (h : s.txWhole j) (m : LineChange s t j l) : l.txFits := by
  cases m with
  | same => exact h.fits
  | quiet _ m => exact quietMove_fits m h.fits
  | takes k time q m => exact txFits_settled ((lineMove_txMove m h.fits.agrees).fits h.fits) time q
  | dataRead n x time q hn hx =>
    refine txFits_settled (takeRead_fits h.fits hn time x.data fun bs hb => ?_) time q
    obtain ⟨hm, hw⟩ := result?_mem hx
    exact (Option.some.inj (hn.symm.trans (h.tied.results x hm hw bs hb))).symm
  | deliverRx b time q _ _ _ _ =>
    refine txFits_settled ?_ time q
    exact ⟨h.fits.agrees, h.fits.holds, h.fits.closed⟩
  | answerTx tag st time q hf _ _ => exact txFits_settled (answerTx_fits h.fits (h.fetch hf).1 time tag st) time q
  | acceptTx r ws time q hf hw _ =>
    exact txFits_settled (acceptTx_fits h.fits (h.fetch hf).1 (h.fetch hf).2 hw time ws r) time q
  | stopLine time => exact (stopLine_txMove h.fits.agrees time).fits h.fits
  | tick => exact ⟨h.fits.agrees, h.fits.holds, h.fits.closed⟩
  | fresh => exact txFits_reset
  | expireStop => exact expireStop_fits h.fits

/-! ### The transmitter while a record is fetched -/

/-- The transmitter has no record and nothing to report. -/
def TxSide.empty (x : TxSide) : Prop := x.cur = none ∧ x.slot = none

theorem TxEffect.empty {x y : TxSide} (m : TxEffect x y) (h : x.empty) : y.empty :=
  ⟨m.keeps.cur h.1, (m.keeps.slot h.1).trans h.2⟩

theorem settled_empty (h : l.tx.empty) (time : Word) (q : ReqQueue) : (l.settled j time q).tx.empty :=
  have hk := settled_keeps l j time q
  ⟨hk.cur.trans h.1, hk.slot.trans h.2⟩

theorem empty_of_asksTxq {q : ReqQueue} (h : l.asksTxq q = true) : l.tx.empty := by
  obtain ⟨_, hcur, hslot, _⟩ := (asksTxq_iff l q).1 h
  exact ⟨hcur, hslot⟩

theorem quietMove_empty (m : QuietMove s j l) (h : (s.line j).tx.empty) : l.tx.empty := by
  cases m with
  | clearCounters => exact h
  | breakEnds _ => exact (gapRestart_onlyRx { s.line j with rx := { (s.line j).rx with asm := .hunt } }).tx ▸ h
  | measure _ => exact h
  | assembler _ => exact h
  | finishClose stopped _ => exact ⟨rfl, h.2⟩
  | giveUpRx _ _ => exact h
  | giveUpTx _ => exact ⟨h.1, rfl⟩
  | giveUpEvent => exact h

theorem expireStop_empty (h : l.tx.empty) : l.expireStop.tx.empty := by
  unfold Line.expireStop
  split
  · exact ⟨h.1, rfl⟩
  · exact ⟨rfl, rfl⟩

/-- Only a record that a fetch has delivered ends the idleness of a transmitter, which then asks again only once idle. -/
theorem empty_change (h : s.txWhole j) (m : LineChange s t j l) :
    ((s.line j).tx.empty → l.tx.empty) ∨ ((t.rq (txq j)).fetch = true → l.tx.empty) := by
  cases m with
  | same => exact .inl id
  | quiet _ m => exact .inl (quietMove_empty m)
  | takes k time q m => exact .inl fun he => settled_empty ((lineMove_txMove m h.fits.agrees).effect.empty he) time q
  | dataRead n x time q hn _ =>
    exact .inl fun he => settled_empty
      (have hk := (takeRead_keeps h.fits.agrees hn time x.data).2 he.1
       ⟨hk.1, hk.2.trans he.2⟩) time q
  | deliverRx b time q _ _ _ _ =>
    refine .inl fun he => settled_empty ?_ time q
    exact he
  | answerTx tag st time q _ _ hasks | acceptTx r ws time q _ _ hasks =>
    exact .inr fun hf => by
      obtain ⟨x, hx⟩ := hasks hf
      exact empty_of_asksTxq hx
  | stopLine time => exact .inl (stopLine_txMove h.fits.agrees time).effect.empty
  | tick => exact .inl id
  | fresh => exact .inl fun _ => ⟨rfl, rfl⟩
  | expireStop => exact .inl expireStop_empty

theorem move_fetchedEmpty (m : Move tbl s t) (h : s.txWhole j) (hf : (t.rq (txq j)).fetch = true) :
    (t.line j).tx.empty := by
  rcases empty_change h (m.line j) with hkept | hasked
  · rcases fetch_change (m.rq (txq j)) hf with hs | ⟨x, hasked⟩
    · exact hkept (h.fetch hs)
    · exact empty_of_asksTxq (hasked.txq j rfl)
  · exact hasked hf

/-! ### Every step -/

/-- Every move keeps the Engine's data reads of a line its own. -/
theorem move_tied (m : Move tbl s t) (h : s.txWhole j) : t.engine.tied j (t.line j).tx.readInFlight := by
  cases m.reads j with
  | kept hk hf =>
    rw [hk.read]
    exact h.tied.fewer hf
  | settles l e time q hk hline hf he =>
    rw [he, hline]
    exact Engine.tied.settled (hk.read ▸ h.tied.fewer hf) time q
  | readEnds n x e time q hn hx hline hf he =>
    have hnone := (takeRead_keeps (i := j) h.fits.agrees hn s.time x.data).1
    rw [he, hline]
    exact Engine.tied.settled (hnone ▸ ((hn ▸ h.tied).taken hx).fewer hf) time q
  | cleared hr hx _ _ _ => exact tied_of_empty hr hx _

theorem move_txWhole (m : Move tbl s t) (h : s.txWhole j) : t.txWhole j where
  fits := txFits_change h (m.line j)
  fetch hf := move_fetchedEmpty m h hf
  tied := move_tied m h

/-- Settles O57: line by line, over the moves of a step. -/
theorem stepKeepsTheTransmitter : Obligations.StepKeepsTheTransmitter := by
  unfold Obligations.StepKeepsTheTransmitter
  simp only [transmitterAccounted_iff]
  refine keptByEveryStep_of_moves (fun s t hc h j => ?_) (fun s t hr _ j => ?_) fun s t m h j => move_txWhole m (h j)
  · obtain ⟨hfits, hfetch, htied⟩ := h j
    rw [← State.line_congr hc.lines] at hfits hfetch htied
    exact ⟨hfits, State.rq_congr hc.reqQueues _ ▸ hfetch, hc.engine ▸ htied⟩
  · have hengine : t.engine = Engine.reset := by rw [hr.1]; rfl
    refine ⟨hr.line j ▸ txFits_reset, fun hf => ?_, hengine ▸ tied_of_empty rfl rfl _⟩
    rw [hr.rq] at hf
    cases hf

end Sys2Proof.Machine
end

section
/-! PROOF. Every step keeps the transmit FIFO within its 32 bytes (O55): a data read in flight has room for its 16 bytes,
and the Engine knows of no data read of more (R83). -/

namespace Sys2Proof.Machine

variable {tbl : Bool} {s t : State} {j : LineNo} {l : Line} {e f : Engine}

/-! ### The reads of at most 16 bytes -/

/-- The Engine knows of no data read of line `j` of more than 16 bytes, as a request or as a result. -/
structure Engine.readsSmall (e : Engine) (j : LineNo) : Prop where
  known : ∀ r ∈ e.known, r.requester = .dataRead j → ∀ n, r.transfer = .read n → n ≤ 16
  results : ∀ x ∈ e.results, x.requester = .dataRead j → ∀ bs, x.data = some bs → bs.length ≤ 16

theorem answeredBy_small {r : Request} {bs : List Byte} (h : r.answeredBy bs) (hr : ∀ n, r.transfer = .read n → n ≤ 16) :
    bs.length ≤ 16 := by
  cases ht : r.transfer with
  | read k => exact (h.1 k ht).trans_le (hr k ht)
  | write ws => simp [h.2 ws ht]

theorem Engine.readsSmall.fewer (h : e.readsSmall j) (m : FewerReads j e f) : f.readsSmall j where
  known r hr hj := h.known r (m.known r hr hj) hj
  results x hx hj bs hb := by
    rcases m.results x hx hj with hold | ⟨r, hr, hrj, hdata⟩
    · exact h.results x hold hj bs hb
    · exact answeredBy_small (hdata bs hb) (h.known r (requests_known hr) hrj)

/-- A line asks for at most 16 bytes. -/
theorem readRequests_small {r : Request} (h : r ∈ l.readRequests j) {n : Nat} (hn : r.transfer = .read n) : n ≤ 16 := by
  rcases settled_read l j with ⟨hnone, _⟩ | ⟨c, k, addr, _, _, _, _, _, _, hk, hread, _⟩
  · rw [hnone] at h
    cases h
  · rw [hread] at h
    obtain rfl := List.mem_singleton.1 h
    obtain rfl := Transfer.read.inj hn
    omega

theorem Engine.readsSmall.settled (h : e.readsSmall j) (l : Line) :
    Engine.readsSmall { e with listC := e.listC ++ l.readRequests j } j where
  known r hr hj n hn := by
    have hr' : r ∈ e.known ∨ r ∈ l.readRequests j := by
      simp only [Engine.known, List.mem_append] at hr ⊢
      tauto
    rcases hr' with hr' | hr'
    · exact h.known r hr' hj n hn
    · exact readRequests_small hr' hn
  results := h.results

/-! ### The FIFO of one line -/

/-- The FIFO holds at most 32 bytes, and has room for the 16 of a read in flight. -/
def TxSide.bounded (x : TxSide) : Prop := x.fifo.length ≤ 32 ∧ (x.readInFlight ≠ none → x.fifo.length ≤ 16)

theorem ReadKept.bounded {x y : TxSide} (h : ReadKept x y) (hx : x.bounded) : y.bounded :=
  ⟨h.fifo.trans hx.1, fun hr => h.fifo.trans (hx.2 (h.read ▸ hr))⟩

theorem settled_bounded (h : l.tx.bounded) (time : Word) (q : ReqQueue) : (l.settled j time q).tx.bounded := by
  have hsame := settled_sameRecord l j time q
  have hchosen := (chooseOutput_effect l).readKept.bounded h
  unfold TxSide.bounded
  rw [hsame.fifo, hsame.readInFlight]
  rcases settled_read l j with ⟨_, e⟩ | ⟨_, _, _, _, _, _, _, hroom, _, _, _, e⟩
  · rw [e]
    exact hchosen
  · rw [e]
    exact ⟨hchosen.1, fun _ => hroom⟩

/-- The bytes of a data read fit where the read had room. -/
theorem takeRead_bounded {n : Nat} {data : Option (List Byte)} (h : l.tx.bounded) (hf : l.tx.readInFlight = some n)
    (time : Word) (hdata : ∀ bs, data = some bs → bs.length ≤ 16) : (l.takeRead j time data).tx.bounded := by
  have hroom : l.tx.fifo.length ≤ 16 := h.2 (by simp [hf])
  have hdropped : TxSide.bounded { l.tx with readInFlight := none } := ⟨h.1, fun hn => absurd rfl hn⟩
  unfold Line.takeRead
  dsimp only
  split
  next c bs _ _ =>
    have := hdata bs rfl
    refine ⟨?_, fun hn => absurd rfl hn⟩
    simp only [List.length_append]
    omega
  · split
    · exact (endAfterOutput_readKept _ j time .busError).bounded hdropped
    · exact (endRecord_readKept _ j time .busError).bounded hdropped
  · exact hdropped

/-! ### Every step -/

/-- The FIFO of line `j` is bounded, and so are the Engine's data reads for it. -/
def State.fifoBounded (s : State) (j : LineNo) : Prop := (s.line j).tx.bounded ∧ s.engine.readsSmall j

theorem transmitFifoBounded_iff (s : State) : TransmitFifoBounded s ↔ ∀ j, s.fifoBounded j := by
  constructor
  · rintro ⟨hfifo, hlists, haccess, hresults⟩ j
    refine ⟨hfifo j, fun r hr hj n hn => ?_, fun x hx hj bs hb => hresults x hx j bs hj hb⟩
    rcases List.mem_append.1 hr with hr | hr
    · exact hlists r hr j n hj hn
    · obtain ⟨a, ha, rfl⟩ := List.mem_map.1 hr
      exact haccess a (Option.mem_toList.1 ha) j n hj hn
  · intro h
    refine ⟨fun j => (h j).1, fun r hr j n hj hn => ?_, fun a ha j n hj hn => ?_,
      fun x hx j bs hj hb => (h j).2.results x hx hj bs hb⟩
    · exact (h j).2.known r (List.mem_append_left _ hr) hj n hn
    · exact (h j).2.known a.request (List.mem_append_right _ (List.mem_map_of_mem (by simp [ha]))) hj n hn

theorem move_fifoBounded (m : Move tbl s t) (h : s.fifoBounded j) : t.fifoBounded j := by
  obtain ⟨hfifo, hsmall⟩ := h
  cases m.reads j with
  | kept hk hf => exact ⟨hk.bounded hfifo, hsmall.fewer hf⟩
  | settles l e time q hk hline hf he =>
    exact ⟨hline ▸ settled_bounded (hk.bounded hfifo) time q, he ▸ (hsmall.fewer hf).settled l⟩
  | readEnds n x e time q hn hx hline hf he =>
    obtain ⟨hm, hw⟩ := result?_mem hx
    have hdropped := (hsmall.fewer (.drop s (.dataRead j))).fewer hf
    exact ⟨hline ▸ settled_bounded (takeRead_bounded hfifo hn _ (hsmall.results x hm hw)) time q, he ▸ hdropped.settled _⟩
  | cleared _ hx hknown hle hread =>
    refine ⟨⟨hle.trans hfifo.1, fun hr => hle.trans (hfifo.2 ?_)⟩, fun r hr => hsmall.known r (hknown r hr), ?_⟩
    · rcases hread with hnone | heq
      · exact absurd hnone hr
      · exact heq ▸ hr
    · simp [hx]

theorem keptByEveryStep_transmitFifoBounded : KeptByEveryStep TransmitFifoBounded := by
  refine keptByEveryStep_of_moves (fun s t hc h => ?_) (fun s t hr _ => ?_) fun s t m h => ?_
  · rw [transmitFifoBounded_iff] at h ⊢
    intro j
    have hj := h j
    unfold State.fifoBounded at hj ⊢
    rwa [State.line_congr hc.lines, hc.engine]
  · obtain ⟨_, _, hreset, _⟩ := resetMeetsTheInvariants
    rw [transmitFifoBounded_iff] at hreset ⊢
    intro j
    have hj := hreset j
    unfold State.fifoBounded at hj ⊢
    rw [reset_line] at hj
    rw [hr.line, hr.1]
    exact hj
  · rw [transmitFifoBounded_iff] at h ⊢
    exact fun j => move_fifoBounded m (h j)

/-- Settles O55: the collections queue by queue and line by line, and the transmit FIFO with the reads that fill it. -/
theorem stepKeepsCapacities : Obligations.StepKeepsCapacities :=
  ⟨keptByEveryStep_withinCapacity, keptByEveryStep_transmitFifoBounded⟩

end Sys2Proof.Machine
end
